-- ==== Sys2Proof/Word.lean ====
section
/-! DEFINITION. The plain words of the ZGL-6: codes and bytes of host memory, the 32-bit registers, and the length of a day. -/

namespace Sys2Proof

/-- One 8-bit code of TXD or RXD, and one byte of host memory (0.5 Terms, "Code"). -/
abbrev Byte := BitVec 8

/-- One 32-bit register of the register window (chapter 10.2). -/
abbrev Word := BitVec 32

/-- Milliseconds in a day: the clock counts 0..86,399,999 (R1). -/
abbrev dayMs : Nat := 86400000

end Sys2Proof
end

