-- ==== Sys2Proof/Syntax.lean ====
section
/-! DEFINITION. The commands of the ZGL-6: one constructor of `Instr` for each row of spec/opcode_table.json, with the
operands the row needs. A row names one whole and indivisible step of the part; its operands are what the outside world
brings to that step: the channel or slot it concerns, the level of a line, a code, a written register value, and what
the host bus brings (`Bus`). -/

namespace Sys2Proof

/-- The six channels (0.7: "Channels are numbered 1 to 6"). -/
inductive Chan
  | c1 | c2 | c3 | c4 | c5 | c6
deriving DecidableEq, Repr

/-- One kind of access the part makes to host memory in a step, for naming the accesses that end in a bus error.
`done` is how many bytes of the access were stored before the error (R174: "unchanged or partly written"; R183). -/
inductive Access
  /-- Reading the state of a slot of the abandonment set (R176). -/
  | abandonRead (slot : Nat)
  /-- Writing the ABANDONED answer of a slot (R176). -/
  | abandonWrite (slot done : Nat)
  /-- Repeating a pending intake write at the start of step 1 (R174). -/
  | takeAgain (slot done : Nat)
  /-- Reading a slot's state at step 1 (R168, R174). -/
  | post (slot : Nat)
  /-- Writing an answer at step 1 (R168, R174). -/
  | answer (slot done : Nat)
  /-- Writing progress at step 2 (R169, R174). -/
  | progress (slot done : Nat)
  /-- Writing the rack header at step 3 (R170, R174). -/
  | header (done : Nat)
  /-- Reading a slot's state or its docket at step 4 (R171, R174). -/
  | visit (slot : Nat)
  /-- Writing the filing sequence and TAKEN at step 4 (R171, R174). -/
  | take (slot done : Nat)
  /-- Reading page `n` of the page area (R138, R148). -/
  | page (n : Nat)
  /-- Writing SENT into the state of page `n` (R146, R147, R148). -/
  | mark (n : Nat)
  /-- Reading the two image blocks of a SETTINGS WRITE (R182). -/
  | imageRead
  /-- Writing the two image blocks of a SETTINGS READ (R183). -/
  | imageWrite (done : Nat)
deriving DecidableEq, Repr

/-- What the host bus brings to a step that reads or writes host memory: the bytes the host itself has stored since
the last step that looked, in order, the accesses of this step that end in a bus error, and the channels whose page
access for a transmission completes within this step, before a code begins in it (R140). -/
structure Bus where
  writes : List Host.Cell
  errors : List Access
  prompt : List Chan
deriving DecidableEq, Repr

/-- The commands: one constructor per row of the table, in its order. -/
inductive Instr
  /-- POWER_ON (R179). -/
  | powerOn
  /-- RESET_INPUT (R165): the RESET input takes a level; a change from absent to present starts one part reset. -/
  | resetInput (present : Bool)
  /-- CONTROL_RESET (R165): a CONTROL write with RESET 1, and the RUN and SWEEP bits written with it. -/
  | controlReset (run sweep : Bool)
  /-- SET_RUN (R165): a CONTROL write with RUN 1, RESET 0, and the SWEEP bit written with it. -/
  | setRun (sweep : Bool) (bus : Bus)
  /-- CLEAR_RUN (R175): a CONTROL write with RUN 0 and RESET 0; its SWEEP bit is no operand and asks for nothing
  (DESIGN CHOICE, unsafe: notes/assumptions/50.md). -/
  | clearRun
  /-- SWEEP (R167): a CONTROL write of 1 to SWEEP that keeps RUN as it is. -/
  | sweep (bus : Bus)
  /-- STATUS_WRITE (R166). -/
  | statusWrite (value : Word)
  /-- MASK_WRITE (R166). -/
  | maskWrite (value : Word)
  /-- RACK_BASE_WRITE (R165). -/
  | rackBaseWrite (value : Word)
  /-- PAGE_BASE_WRITE (R165). -/
  | pageBaseWrite (value : Word)
  /-- STATION_CLOCK_TICK (R1). -/
  | stationClockTick
  /-- START_TIME_EXPIRY (R107). -/
  | startTimeExpiry (bus : Bus)
  /-- LATEST_START_PASSED (R110) of the calendar entry of a slot. -/
  | latestStartPassed (slot : Nat) (bus : Bus)
  /-- URGENT_LIMIT_PASSED (R132) of the urgent bulletin of a slot. -/
  | urgentLimitPassed (slot : Nat)
  /-- SWEEP_TIMER_EXPIRY (R167). -/
  | sweepTimerExpiry (bus : Bus)
  /-- SWEEP_END (R167). -/
  | sweepEnd (bus : Bus)
  /-- TELEX (R68): the visit of a slot that holds a TELEX docket; so for each docket kind below. -/
  | telex (slot : Nat) (bus : Bus)
  /-- BULLETIN (R101). -/
  | bulletin (slot : Nat) (bus : Bus)
  /-- URGENT (R125). -/
  | urgent (slot : Nat) (bus : Bus)
  /-- DISTRESS (R126). -/
  | distress (slot : Nat) (bus : Bus)
  /-- WITHDRAW (R78). -/
  | withdraw (slot : Nat) (bus : Bus)
  /-- HOLD (R33). -/
  | hold (slot : Nat) (bus : Bus)
  /-- RELEASE (R36). -/
  | release (slot : Nat) (bus : Bus)
  /-- RETUNE (R37). -/
  | retune (slot : Nat) (bus : Bus)
  /-- CLEARFAULT (R158). -/
  | clearfault (slot : Nat) (bus : Bus)
  /-- QUIETEN (R159). -/
  | quieten (slot : Nat) (bus : Bus)
  /-- SETCLOCK (R6). -/
  | setclock (slot : Nat) (bus : Bus)
  /-- SNAPSHOT (R43). -/
  | snapshot (slot : Nat) (bus : Bus)
  /-- SETUP (R180). -/
  | setup (slot : Nat) (bus : Bus)
  /-- SETUP_EXIT (R181). -/
  | setupExit (slot : Nat) (bus : Bus)
  /-- SETTINGS_READ (R183). -/
  | settingsRead (slot : Nat) (bus : Bus)
  /-- SETTINGS_WRITE (R182). -/
  | settingsWrite (slot : Nat) (bus : Bus)
  /-- COMMIT (R184). -/
  | commit (slot : Nat) (bus : Bus)
  /-- COMMIT_COMPLETION (R184): the non-volatile memory decides whether the write succeeded. -/
  | commitCompletion (success : Bool)
  /-- BAD_KIND (R172): the visit of a slot whose docket has an unknown kind code. -/
  | badKind (slot : Nat) (bus : Bus)
  /-- CHARACTER_BOUNDARY (R16). -/
  | characterBoundary (c : Chan) (bus : Bus)
  /-- KEY_UP_LEAD_EXPIRY (R25). -/
  | keyUpLeadExpiry (c : Chan) (bus : Bus)
  /-- HANG_EXPIRY (R26). -/
  | hangExpiry (c : Chan) (bus : Bus)
  /-- TUNE_STROBE_EXPIRY (R38). -/
  | tuneStrobeExpiry (c : Chan)
  /-- RETUNE_LIMIT_EXPIRY (R40). -/
  | retuneLimitExpiry (c : Chan)
  /-- ANSWERBACK_TIMEOUT (R89). -/
  | answerbackTimeout (c : Chan) (bus : Bus)
  /-- CLOSING_CHECK_TIMEOUT (R94). -/
  | closingCheckTimeout (c : Chan) (bus : Bus)
  /-- RXD_CODE_ARRIVAL (R87). -/
  | rxdCodeArrival (c : Chan) (code : Byte) (bus : Bus)
  /-- LINE_CHECK (R151): the levels of READY, ALARM and AUX at the check, true for present. -/
  | lineCheck (c : Chan) (ready alarm aux : Bool) (bus : Bus)
  /-- QUIET_PERIOD_EXPIRY (R156). -/
  | quietPeriodExpiry (c : Chan) (bus : Bus)
  /-- LOOKAHEAD_WAIT_THRESHOLD (R59). -/
  | lookaheadWaitThreshold (c : Chan)
  /-- STARVATION_EXPIRY (R145). -/
  | starvationExpiry (c : Chan)
  /-- PAGE_REREAD_TIMER_EXPIRY (R144). -/
  | pageRereadTimerExpiry (c : Chan)
  /-- TELEX_PAGE_READ (R142). -/
  | telexPageRead (c : Chan) (bus : Bus)
  /-- BULLETIN_PAGE_READ (R140). -/
  | bulletinPageRead (c : Chan) (bus : Bus)
  /-- MARKING_WALK_END (R147). -/
  | markingWalkEnd (c : Chan) (bus : Bus)
  /-- POWER_LOSS (R184). -/
  | powerLoss
deriving DecidableEq, Repr

end Sys2Proof
end

