-- ==== Sys2Proof/Decode.lean ====
section
/-! DEFINITION. The decoder of the command words. The ZGL-6 is a block: spec/opcode_table.json gives no row any bits,
so no word spells a command, and the decoder answers none for every word. Dockets are read from the rack by
Machine/Operands.lean. -/

namespace Sys2Proof

/-- The command that the word `w` of `nbits` bits spells by the table's bits: the table gives no row any. -/
def decodeTableWord (_nbits _w : Nat) : Option Instr := none

end Sys2Proof
end

