-- ==== Sys2Proof/Config.lean ====
section
/-! DEFINITION. What the spec leaves open and the model leaves free: constants with no body, so that nothing can be
proved of their values. -/

namespace Sys2Proof.Config

/-- The free choices the part makes inside a step (notes/assumptions/5.md, notes/assumptions/6.md): choice number `n`.
The state's counter `fresh` numbers them, so that each choice is a fresh one. -/
opaque choice : Nat → Nat

/-- How far a bad checksum of the stored image lies from the right one (R184: the stored image "is left with a bad
checksum"); at most 65,534, so the sum stored is never the right one (notes/assumptions/7.md). -/
opaque badChecksumOffset : Fin 65535

end Sys2Proof.Config
end

