-- ==== Sys2Proof/Machine/Image.lean ====
section
/-! DEFINITION. The settings image (chapter 11.2): its fields, its factory defaults, its 512 bytes and their checksum,
and the clamped reading of an image from bytes (R182). -/

namespace Sys2Proof

/-- The six channels in channel order. -/
def Chan.all : List Chan := [.c1, .c2, .c3, .c4, .c5, .c6]

/-- A channel's place from 0: channel n has bit n−1 of a channel mask (chapter 10.2). -/
def Chan.index : Chan → Nat
  | .c1 => 0
  | .c2 => 1
  | .c3 => 2
  | .c4 => 3
  | .c5 => 4
  | .c6 => 5

/-- The channel a docket's channel field names, none outside 1–6. -/
def Chan.ofNumber : Nat → Option Chan
  | 1 => some .c1
  | 2 => some .c2
  | 3 => some .c3
  | 4 => some .c4
  | 5 => some .c5
  | 6 => some .c6
  | _ => none

end Sys2Proof

namespace Sys2Proof.Machine

/-- One value for each of the six channels. -/
structure Six (α : Type) where
  c1 : α
  c2 : α
  c3 : α
  c4 : α
  c5 : α
  c6 : α
deriving DecidableEq, Repr

/-- The value of a channel. -/
def Six.get {α : Type} (x : Six α) : Chan → α
  | .c1 => x.c1
  | .c2 => x.c2
  | .c3 => x.c3
  | .c4 => x.c4
  | .c5 => x.c5
  | .c6 => x.c6

/-- The six values with one channel's value replaced. -/
def Six.set {α : Type} (x : Six α) (c : Chan) (v : α) : Six α :=
  match c with
  | .c1 => { x with c1 := v }
  | .c2 => { x with c2 := v }
  | .c3 => { x with c3 := v }
  | .c4 => { x with c4 := v }
  | .c5 => { x with c5 := v }
  | .c6 => { x with c6 := v }

/-- The six values of a function of the channel. -/
def Six.ofFn {α : Type} (f : Chan → α) : Six α := ⟨f .c1, f .c2, f .c3, f .c4, f .c5, f .c6⟩

/-- The same value for each channel. -/
def Six.all {α : Type} (v : α) : Six α := ⟨v, v, v, v, v, v⟩

/-- The AUX designation (R160): NONE, STOP_KEY or ON_AIR. -/
inductive AuxUse
  | unused | stopKey | onAir
deriving DecidableEq, Repr

/-- The stop edge setting (R160). -/
inductive StopEdge
  | rising | falling | both
deriving DecidableEq, Repr

/-- The protection level (R178). -/
inductive Protection
  | openLevel | keyed | fixed
deriving DecidableEq, Repr

/-- The settings of one channel (chapter 11.2, offset 128). `reduced` is distress-on-fault REDUCED. -/
structure ChanSettings where
  enabled : Bool
  aux : AuxUse
  period : Nat
  lead : Nat
  hang : Nat
  edge : StopEdge
  reduced : Bool
  startPreset : Nat
deriving DecidableEq, Repr

/-- The settings of one series (chapter 11.2, offset 224). -/
structure Series where
  enabled : Bool
  guardSeconds : Nat
  allowed : BitVec 8
deriving DecidableEq, Repr

/-- The settings image (chapter 11.2), field by field in the units of the layout table. -/
structure Image where
  sweepInterval : Nat
  alarmDelay : Nat
  callAttempts : Nat
  recoveryDelay : Nat
  quietSeconds : Nat
  retuneSeconds : Nat
  answerbackSeconds : Nat
  starvationSeconds : Nat
  urgentMinutes : Nat
  lineEnd : Byte
  idle : Byte
  request : Byte
  attentionMask : Word
  protection : Protection
  cutLength : Nat
  resumeLength : Nat
  signoffLength : Nat
  key : List Byte
  cutCodes : List Byte
  resumeCodes : List Byte
  signoffCodes : List Byte
  chan : Six ChanSettings
  series : List Series
deriving DecidableEq, Repr

/-- The cut notice: the codes up to the length ("a notice's codes beyond its length are not sent"). -/
def Image.cut (img : Image) : List Byte := img.cutCodes.take img.cutLength

/-- The resume notice. -/
def Image.resume (img : Image) : List Byte := img.resumeCodes.take img.resumeLength

/-- The signoff. -/
def Image.signoff (img : Image) : List Byte := img.signoffCodes.take img.signoffLength

/-- A list of codes brought to length `n`: cut there, or followed by 0x00 codes. -/
def padTo (n : Nat) (l : List Byte) : List Byte := (l ++ List.replicate n 0).take n

/-- The factory defaults of a channel (chapter 11.2). -/
def ChanSettings.factory : ChanSettings :=
  { enabled := true, aux := .unused, period := 150, lead := 400, hang := 2000, edge := .falling, reduced := false
    startPreset := 0 }

/-- The factory defaults of a series (chapter 11.2): on, guard 30 s, all six channels. -/
def Series.factory : Series := { enabled := true, guardSeconds := 30, allowed := 0x3F }

/-- The factory defaults (chapter 11.2). The notices are "BRK FOR BUL", "RESUMING" and "NNNN", each followed by the
line-end code. -/
def Image.factory : Image :=
  { sweepInterval := 20, alarmDelay := 5, callAttempts := 3, recoveryDelay := 100, quietSeconds := 10
    retuneSeconds := 45, answerbackSeconds := 8, starvationSeconds := 15, urgentMinutes := 30
    lineEnd := 0x0A, idle := 0x00, request := 0x05, attentionMask := 0x2BD, protection := .openLevel
    cutLength := 12, resumeLength := 9, signoffLength := 5, key := List.replicate 8 0
    cutCodes := padTo 32 [0x42, 0x52, 0x4B, 0x20, 0x46, 0x4F, 0x52, 0x20, 0x42, 0x55, 0x4C, 0x0A]
    resumeCodes := padTo 32 [0x52, 0x45, 0x53, 0x55, 0x4D, 0x49, 0x4E, 0x47, 0x0A]
    signoffCodes := padTo 32 [0x4E, 0x4E, 0x4E, 0x4E, 0x0A]
    chan := Six.all ChanSettings.factory
    series := List.replicate 16 Series.factory }

/-- The `n` bytes of a number, least significant byte first (chapters 10.2 and 11.2). -/
def leBytes : Nat → Nat → List Byte
  | 0, _ => []
  | n + 1, v => BitVec.ofNat 8 v :: leBytes n (v / 256)

/-- The number that bytes spell, least significant byte first. -/
def leNat : List Byte → Nat
  | [] => 0
  | b :: rest => b.toNat + 256 * leNat rest

/-- The code of an on-off field. -/
def boolCode (b : Bool) : Byte := if b then 1 else 0

/-- The code of an AUX designation (chapter 11.2). -/
def AuxUse.code : AuxUse → Byte
  | .unused => 0
  | .stopKey => 1
  | .onAir => 2

/-- The code of a stop edge (chapter 11.2). -/
def StopEdge.code : StopEdge → Byte
  | .rising => 0
  | .falling => 1
  | .both => 2

/-- The code of a protection level (chapter 11.2). -/
def Protection.code : Protection → Byte
  | .openLevel => 0
  | .keyed => 1
  | .fixed => 2

/-- The 16 bytes of a channel's settings. -/
def ChanSettings.bytes (k : ChanSettings) : List Byte :=
  [boolCode k.enabled, k.aux.code] ++ leBytes 2 k.period ++ leBytes 2 k.lead ++ leBytes 2 k.hang
    ++ [k.edge.code, boolCode k.reduced, BitVec.ofNat 8 k.startPreset, 0, 0, 0, 0, 0]

/-- The 4 bytes of a series' settings. -/
def Series.bytes (k : Series) : List Byte :=
  [boolCode k.enabled, BitVec.ofNat 8 k.guardSeconds, k.allowed, 0]

/-- Bytes 0 to 509 of the image: the named fields, and 0 in the bytes not named (chapter 11.2). -/
def Image.body (img : Image) : List Byte :=
  padTo 510 (leBytes 2 img.sweepInterval
    ++ [BitVec.ofNat 8 img.alarmDelay, BitVec.ofNat 8 img.callAttempts]
    ++ leBytes 2 img.recoveryDelay
    ++ [BitVec.ofNat 8 img.quietSeconds, BitVec.ofNat 8 img.retuneSeconds, BitVec.ofNat 8 img.answerbackSeconds,
        BitVec.ofNat 8 img.starvationSeconds, BitVec.ofNat 8 img.urgentMinutes, img.lineEnd, img.idle, img.request]
    ++ leBytes 2 img.attentionMask.toNat
    ++ [img.protection.code, BitVec.ofNat 8 img.cutLength, BitVec.ofNat 8 img.resumeLength,
        BitVec.ofNat 8 img.signoffLength]
    ++ padTo 8 img.key
    ++ padTo 32 img.cutCodes ++ padTo 32 img.resumeCodes ++ padTo 32 img.signoffCodes
    ++ List.replicate 4 0
    ++ (Chan.all.map (fun c => (img.chan.get c).bytes)).flatten
    ++ ((img.series.take 16).map Series.bytes).flatten)

/-- The checksum: "65,535 less the sum of bytes 0–509, taken modulo 65,536" (chapter 11.2). -/
def checksumOf (body : List Byte) : BitVec 16 :=
  BitVec.ofNat 16 (65535 + 65536 * body.length - (body.map BitVec.toNat).sum)

/-- The checksum of an image. -/
def Image.checksum (img : Image) : BitVec 16 := checksumOf img.body

/-- The 512 bytes of the image, the computed checksum last. -/
def Image.bytes (img : Image) : List Byte := img.body ++ leBytes 2 img.checksum.toNat

/-- A number taken to the nearer limit of its range (R182). -/
def clamp (lo hi v : Nat) : Nat := if v < lo then lo else if hi < v then hi else v

/-- 1 if a number lies outside its range, and 0 otherwise: what the field adds to values clamped (R182). -/
def outside (lo hi v : Nat) : Nat := if v < lo ∨ hi < v then 1 else 0

/-- The numbers of the image, as (offset, size, lowest, highest) in the order of the layout table (chapter 11.2),
the channels' and the series' apart. -/
def numberFields : List (Nat × Nat × Nat × Nat) :=
  [(0, 2, 5, 200), (2, 1, 1, 50), (3, 1, 1, 5), (4, 2, 10, 500), (6, 1, 1, 60), (7, 1, 5, 120), (8, 1, 2, 30),
   (9, 1, 1, 60), (10, 1, 1, 120), (16, 1, 0, 2), (17, 1, 0, 32), (18, 1, 0, 32), (19, 1, 0, 32)]

/-- The fields of a channel's 16 bytes as (offset, size, lowest, highest): codes and on-off fields are numbers
from 0, since one above the highest code takes the highest code (R182). -/
def chanFields : List (Nat × Nat × Nat × Nat) :=
  [(0, 1, 0, 1), (1, 1, 0, 2), (2, 2, 10, 300), (4, 2, 0, 5000), (6, 2, 0, 30000), (8, 1, 0, 2), (9, 1, 0, 1),
   (10, 1, 0, 31)]

/-- The on-off field and the guard of a series' 4 bytes. -/
def seriesFields : List (Nat × Nat × Nat × Nat) := [(0, 1, 0, 1), (1, 1, 0, 120)]

/-- The `size` bytes at `off` of an image's bytes. -/
def imageSlice (b : List Byte) (off size : Nat) : List Byte := padTo size (b.drop off)

/-- The number of `size` bytes at `off`, clamped to its range. -/
def imageNumber (b : List Byte) (off size lo hi : Nat) : Nat := clamp lo hi (leNat (imageSlice b off size))

/-- An on-off field: every code above 0 reads on, the highest code being 1 (R182). -/
def imageFlag (b : List Byte) (off : Nat) : Bool := decide (leNat (imageSlice b off 1) ≠ 0)

/-- An AUX designation code; a code above the highest takes the highest. -/
def AuxUse.ofCode : Nat → AuxUse
  | 0 => .unused
  | 1 => .stopKey
  | _ => .onAir

/-- A stop edge code; a code above the highest takes the highest. -/
def StopEdge.ofCode : Nat → StopEdge
  | 0 => .rising
  | 1 => .falling
  | _ => .both

/-- A protection level code; a code above the highest takes the highest. -/
def Protection.ofCode : Nat → Protection
  | 0 => .openLevel
  | 1 => .keyed
  | _ => .fixed

/-- The settings of a channel read from its 16 bytes at `off`, clamped. -/
def imageChan (b : List Byte) (off : Nat) : ChanSettings :=
  { enabled := imageFlag b off
    aux := AuxUse.ofCode (imageNumber b (off + 1) 1 0 2)
    period := imageNumber b (off + 2) 2 10 300
    lead := imageNumber b (off + 4) 2 0 5000
    hang := imageNumber b (off + 6) 2 0 30000
    edge := StopEdge.ofCode (imageNumber b (off + 8) 1 0 2)
    reduced := imageFlag b (off + 9)
    startPreset := imageNumber b (off + 10) 1 0 31 }

/-- The settings of a series read from its 4 bytes at `off`, clamped; the mask loses its bits outside channels 1–6. -/
def imageSeries (b : List Byte) (off : Nat) : Series :=
  { enabled := imageFlag b off
    guardSeconds := imageNumber b (off + 1) 1 0 120
    allowed := BitVec.ofNat 8 (leNat (imageSlice b (off + 2) 1)) &&& 0x3F }

/-- The image that 512 bytes spell, field by field and clamped (R182). The checksum is not read. -/
def imageOfBytes (b : List Byte) : Image :=
  { sweepInterval := imageNumber b 0 2 5 200
    alarmDelay := imageNumber b 2 1 1 50
    callAttempts := imageNumber b 3 1 1 5
    recoveryDelay := imageNumber b 4 2 10 500
    quietSeconds := imageNumber b 6 1 1 60
    retuneSeconds := imageNumber b 7 1 5 120
    answerbackSeconds := imageNumber b 8 1 2 30
    starvationSeconds := imageNumber b 9 1 1 60
    urgentMinutes := imageNumber b 10 1 1 120
    lineEnd := BitVec.ofNat 8 (leNat (imageSlice b 11 1))
    idle := BitVec.ofNat 8 (leNat (imageSlice b 12 1))
    request := BitVec.ofNat 8 (leNat (imageSlice b 13 1))
    attentionMask := BitVec.ofNat 32 (leNat (imageSlice b 14 2)) &&& 0x3FF
    protection := Protection.ofCode (imageNumber b 16 1 0 2)
    cutLength := imageNumber b 17 1 0 32
    resumeLength := imageNumber b 18 1 0 32
    signoffLength := imageNumber b 19 1 0 32
    key := imageSlice b 20 8
    cutCodes := imageSlice b 28 32
    resumeCodes := imageSlice b 60 32
    signoffCodes := imageSlice b 92 32
    chan := Six.ofFn (fun c => imageChan b (128 + 16 * c.index))
    series := (List.range 16).map (fun i => imageSeries b (224 + 4 * i)) }

/-- How many of the fields at `off` lie outside their ranges. -/
def clampedFields (b : List Byte) (off : Nat) (fields : List (Nat × Nat × Nat × Nat)) : Nat :=
  (fields.map (fun f => outside f.2.2.1 f.2.2.2 (leNat (imageSlice b (off + f.1) f.2.1)))).sum

/-- 1 if a mask field holds a bit outside its defined positions (R182). -/
def clampedMask (b : List Byte) (off size bits : Nat) : Nat :=
  if leNat (imageSlice b off size) < 2 ^ bits then 0 else 1

/-- Values clamped: how many fields of the bytes are clamped, each counted once (R182). -/
def clampedCount (b : List Byte) : Nat :=
  clampedFields b 0 numberFields + clampedMask b 14 2 10
    + (Chan.all.map (fun c => clampedFields b (128 + 16 * c.index) chanFields)).sum
    + ((List.range 16).map (fun i =>
        clampedFields b (224 + 4 * i) seriesFields + clampedMask b (224 + 4 * i + 2) 1 6)).sum

/-- The guard of a series in milliseconds (R11: "guard seconds × 1000"). -/
def Image.guardMs (img : Image) (series : Nat) : Nat :=
  match img.series[series]? with
  | some k => k.guardSeconds * 1000
  | none => 0

end Sys2Proof.Machine
end

