-- ==== Sys2Proof/Machine/State.lean ====
section
/-! DEFINITION. The state of the ZGL-6, as plain data, and its value right after power-on. Pins and levels that follow
from other state (KEY, LOWPWR, the AUX lamp, the TUNE lines, ATTN, NOCLOCK) are computed from it by Machine/Flags.lean
and Machine/Ops.lean: each has one home. -/

namespace Sys2Proof.Machine

/-- No command of the ZGL-6 faults: the spec gives every command an effect in every state (notes/assumptions/1.md). -/
inductive Fault
deriving DecidableEq, Repr

/-- Why a command has no meaning. -/
inductive Refusal
  /-- Raised by exec's arm of a command that has no meaning yet. Safe: the machine stops. -/
  | notModelled (mnemonic : String)
deriving DecidableEq, Repr

/-- The results of a docket answer (chapter 10.2, Codes). -/
inductive Result
  | done | unconfirmed | partly | failed | withdrawn | noContact | wrongStation | starved | badText | busFault
  | closed | abandoned | refused
deriving DecidableEq, Repr

/-- The refusal reasons (chapter 10.2, Codes). -/
inductive Reason
  | badKind | badChannel | channelOff | channelFaulted | badSeries | badTime | badPair | badText | clockNotSet
  | notHeld | notWithdrawable | alreadyEnding | inSetup | notInSetup | channelsBusy | keyWrong | fixed | lineActive
deriving DecidableEq, Repr

/-- The outcome of a bulletin repetition, urgent bulletin or relay on one channel (chapter 10.2). -/
inductive ChanOutcome
  | pending | onAir | sent | failed | missed | notUsed
deriving DecidableEq, Repr

/-- The channel states, in the order of the state table of chapter 2 (R15). -/
inductive ChState
  | off | idle | unready | keying | calling | sending | closing | hang | retuning | held | faulted | lockedOut
deriving DecidableEq, Repr

/-- Kind of a fault onset (R150). -/
inductive FaultKind
  | none | alarm | notReady | tuneFail
deriving DecidableEq, Repr

/-- Kind of an item on a channel: the attribute of R15. -/
inductive ItemKind
  | telex | bulletin | urgent | distress
deriving DecidableEq, Repr

/-- Segment of a telex item in SENDING (R15). -/
inductive Segment
  | resumeNotice | text | cutNotice | signoff
deriving DecidableEq, Repr

/-- What a channel's six bytes of a SNAPSHOT hold (R43). -/
structure ChanView where
  state : ChState
  preset : Nat
  faults : Nat
  lastKind : FaultKind
  queued : Nat
  onAir : Option Nat
deriving DecidableEq, Repr

/-- The progress fields an answer carries (R168), by kind. -/
inductive Progress
  | none
  | telex (sent offset cuts attempts : Nat)
  | bulletin (done : Nat) (last : Six ChanOutcome) (sentCount : Six Nat)
  | priority (out : Six ChanOutcome)
  | snapshot (views : Six ChanView)
  | clamped (n : Nat)
deriving DecidableEq, Repr

/-- The slot state an answer expects to find (R168). -/
inductive Expected
  | taken | filed
deriving DecidableEq, Repr

/-- One answer of the backlog (R168). -/
structure Answer where
  slot : Nat
  result : Result
  reason : Option Reason
  time : Nat
  noclock : Bool
  progress : Progress
  expected : Expected
  seq : Option Nat
  walk : Bool
deriving DecidableEq, Repr

/-- The Station Clock (R1, R3). -/
structure Clock where
  value : Nat
  isSet : Bool
deriving DecidableEq, Repr

/-- The Rack Port (R164 to R177). `sweep` is the sweep-in-progress mark, with the next slot step 4 visits. `events`
holds the raw event flags of STATUS; NOCLOCK is a level and is read from the clock. -/
structure Rack where
  run : Bool
  basesOpen : Bool
  rackBase : Word
  pageBase : Word
  sweepTimer : Option Nat
  latch : Bool
  sweep : Option Nat
  sweepCount : Nat
  posted : Nat
  held : Nat
  epoch : Nat
  seq : Nat
  events : Word
  mask : Word
  backlog : List Answer
  pendingTakes : List (Nat × Nat)
  abandon : List Nat
deriving DecidableEq, Repr

/-- A COMMIT in progress: its slot, the copy being written, and the milliseconds since the write began (R178, R184). -/
structure Commit where
  slot : Nat
  copy : Image
  elapsed : Nat
deriving DecidableEq, Repr

/-- The stored image and its checksum (R178). -/
structure StoredImage where
  image : Image
  checksum : BitVec 16
deriving DecidableEq, Repr

/-- The Settings Store (R178). `resetWaits` is a part reset requested while a commit is in progress (R165). -/
structure Store where
  stored : StoredImage
  working : Image
  staged : Option Image
  setup : Bool
  protection : Protection
  key : List Byte
  commit : Option Commit
  resetWaits : Bool
deriving DecidableEq, Repr

/-- The states of a telex item (R70). -/
inductive TelexState
  | queued | calling | onAir | interrupted | ending
deriving DecidableEq, Repr

/-- One item of the telex pool (R70). The call code and the expected answerback carry their own lengths. -/
structure TelexItem where
  slot : Nat
  channel : Chan
  priority : Bool
  state : TelexState
  callCode : List Byte
  answerback : List Byte
  firstPage : Nat
  offset : Nat
  sent : Nat
  cuts : Nat
  attempts : Nat
  changed : Bool
deriving DecidableEq, Repr

/-- Place of a calendar entry in a pair (R104). -/
inductive Role
  | single | leader | follower
deriving DecidableEq, Repr

/-- Phase of a calendar entry (R104); a follower has none. -/
inductive Phase
  | waiting | due
deriving DecidableEq, Repr

/-- One entry of the calendar (R104). `start` is S; `r` is the remaining tolerance and `e` the elapsed count. The last
two marks are the model's: a tick has reported the arrival of S (R2), and the limit's passing tick has come (R13;
notes/assumptions/16.md). -/
structure CalEntry where
  slot : Nat
  seq : Nat
  series : Nat
  role : Role
  partner : Option Nat
  mask : BitVec 8
  start : Nat
  phase : Option Phase
  tolerance : Nat
  r : Int
  e : Nat
  interval : Nat
  requested : Nat
  done : Nat
  left : Nat
  out : Six ChanOutcome
  limitPassed : Bool
  withdrawn : Bool
  last : Six ChanOutcome
  sentCount : Six Nat
  sentTally : Nat
  unsentTally : Nat
  firstPage : Nat
  changed : Bool
  arrived : Bool
  passing : Bool
deriving DecidableEq, Repr

/-- One entry of the Priority List (R123). `passing` is the model's mark: the urgent limit's passing tick has come
(R13). -/
structure PrioEntry where
  slot : Nat
  distress : Bool
  mask : BitVec 8
  firstPage : Nat
  out : Six ChanOutcome
  limit : Option Nat
  limitPassed : Bool
  withdrawn : Bool
  changed : Bool
  passing : Bool
deriving DecidableEq, Repr

/-- The item settings: copies taken at the pick (R15). -/
structure ItemSettings where
  period : Nat
  lead : Nat
  hang : Nat
  lineEnd : Byte
  idle : Byte
  request : Byte
  cut : List Byte
  resume : List Byte
  signoff : List Byte
deriving DecidableEq, Repr

/-- The on-air item of a channel (R15). `resumed` is the model's: the item was INTERRUPTED at the pick (R23). -/
structure OnAir where
  kind : ItemKind
  slot : Nat
  repetition : Nat
  resumed : Bool
deriving DecidableEq, Repr

/-- The result fixed at a cut (R55). -/
inductive Fixed
  | interrupted
  | ends (result : Result)
deriving DecidableEq, Repr

/-- What the code now on TXD is (R16, R64). -/
inductive TxKind
  | idle | call | text | notice | body
deriving DecidableEq, Repr

/-- The code now on TXD. -/
structure Tx where
  kind : TxKind
  code : Byte
deriving DecidableEq, Repr

/-- A pick asked for (R21): none, at the next character boundary in HANG, or in this same event. -/
inductive PickMark
  | none | atBoundary | now
deriving DecidableEq, Repr

/-- Condition of a Call Unit (R84). -/
inductive CallCondition
  | standby | transmit | listen
deriving DecidableEq, Repr

/-- Mode of a Call Unit (R84). -/
inductive CallMode
  | opening | closing
deriving DecidableEq, Repr

/-- A Call Unit (R84). -/
structure CallUnit where
  condition : CallCondition
  mode : Option CallMode
  resumed : Option Bool
  window : List Byte
  attempts : Nat
  timer : Option Nat
deriving DecidableEq, Repr

/-- A page the Page Fetcher has read (R138): its number, pages walked up to and including it, the text position of its
first code, its count and next field, and the codes of it not yet taken. -/
structure PageCopy where
  num : Nat
  walked : Nat
  start : Nat
  count : Nat
  next : Nat
  rest : List Byte
deriving DecidableEq, Repr

/-- A page access of a telex reading under way: a page with the pages walked before it, the text position of its first
code and the index of the first code wanted; or the reread of the next field of the page held (R144). -/
inductive PageRequest
  | read (page walked start skip : Nat)
  | reread
deriving DecidableEq, Repr

/-- The condition of a lookahead or first-line reading (R47). -/
inductive ReadCondition
  | inProgress
  | settled (final : Bool)
  | settledNone
  | blocked
  | unreadable (result : Result)
deriving DecidableEq, Repr

/-- A lookahead, or the first-line reading of a head item (R47, R48): the codes gathered of its line, the page being
read and the access under way. -/
structure Reading where
  slot : Nat
  first : Bool
  lineEnd : Byte
  line : List Byte
  copy : Option PageCopy
  request : Option PageRequest
  condition : ReadCondition
deriving DecidableEq, Repr

/-- A page of the on-air telex chain that has been read and not yet marked SENT (R146). -/
structure ChainPage where
  num : Nat
  walked : Nat
  start : Nat
  count : Nat
  next : Nat
deriving DecidableEq, Repr

/-- The resume position (R143). `ended`: it stands at the end of a chain that has reached END (R48). -/
structure ResumePos where
  page : Nat
  index : Nat
  walked : Nat
  ended : Bool
deriving DecidableEq, Repr

/-- The reading of the transmission of a bulletin, urgent bulletin or relay (R140): the page on the air and the page
after it, the page access under way, the pages walked, and whether a read has failed (R141). -/
structure BodyReading where
  pages : List PageCopy
  request : Option Nat
  walked : Nat
  failed : Bool
deriving DecidableEq, Repr

/-- A marking walk requested and not yet stopped (R147): the item's slot, the first page, and how many pages at most. -/
structure Walk where
  slot : Nat
  page : Nat
  limit : Nat
deriving DecidableEq, Repr

/-- A Page Fetcher (chapter 8.2). -/
structure Fetcher where
  reading : Option Reading
  chain : List ChainPage
  resume : Option ResumePos
  body : Option BodyReading
  reread : Option Nat
  starvation : Option Nat
  walks : List Walk
deriving DecidableEq, Repr

/-- A run of a line (R150): the level of the latest check, true for present, and its count of checks. -/
structure Run where
  level : Option Bool
  count : Nat
deriving DecidableEq, Repr

/-- A channel section of the Line Supervisor (R150), and its line-check timer (R151). -/
structure LineSection where
  alarm : Run
  ready : Run
  alarmDeclared : Bool
  readyDeclared : Bool
  recovery : Nat
  recoveryReported : Bool
  faults : Nat
  lastKind : FaultKind
  quiet : Option Nat
  auxLevel : Option Bool
  auxLast : Option Bool
  check : Option Nat
deriving DecidableEq, Repr

/-- One channel: the channel record (R15), its text state (R66), Call Unit, Page Fetcher and line section.
`retune` is the docket of the retune in progress; `returnHeld` is return state HELD; `readyView` is PRESENT;
`offWaits` is the wait of R27 for the boundary of a channel switched OFF. `rest` is what is left of the string of codes
being sent. `pick` and `codeDue` are the model's: a pick asked for, and a code to begin in this event. -/
structure Channel where
  state : ChState
  onAir : Option OnAir
  segment : Option Segment
  item : ItemSettings
  follower : Option Nat
  pendingRetune : Option (Nat × Nat)
  pendingHold : Option Nat
  stopPending : Bool
  stopAtBoundary : Bool
  returnHeld : Bool
  absenceSeen : Bool
  readyCount : Nat
  readyView : Bool
  recoveryPending : Bool
  preset : Nat
  lead : Option Nat
  hang : Option Nat
  retuneLimit : Option Nat
  strobe : Option Nat
  period : Option Nat
  retune : Option Nat
  offWaits : Bool
  tx : Option Tx
  rest : List Byte
  textPosition : Nat
  lineFinal : Bool
  waiting : Bool
  cutDecided : Bool
  decided : Option Result
  fixed : Option Fixed
  pick : PickMark
  codeDue : Bool
  call : CallUnit
  fetch : Fetcher
  line : LineSection
deriving DecidableEq, Repr

/-- The state of the part, the host memory it works in, and the queue of commands waiting. `fresh` is the model's:
it numbers the free choices (Config.choice). -/
structure State where
  power : Bool
  resetPin : Bool
  clock : Clock
  rack : Rack
  store : Store
  telex : List TelexItem
  calendar : List CalEntry
  priority : List PrioEntry
  chans : Six Channel
  mem : List Host.Cell
  fresh : Nat
  pending : List Instr
deriving DecidableEq, Repr

/-- A Call Unit after either reset (R98). -/
def CallUnit.reset : CallUnit :=
  { condition := .standby, mode := none, resumed := none, window := [], attempts := 0, timer := none }

/-- A Page Fetcher after either reset (R149). -/
def Fetcher.reset : Fetcher :=
  { reading := none, chain := [], resume := none, body := none, reread := none, starvation := none, walks := [] }

/-- A line section after power-on (R163): its line-check timer is started, 10 ms (R151). -/
def LineSection.powerOn : LineSection :=
  { alarm := ⟨none, 0⟩, ready := ⟨none, 0⟩, alarmDeclared := false, readyDeclared := false, recovery := 0
    recoveryReported := false, faults := 0, lastKind := .none, quiet := none, auxLevel := none, auxLast := none
    check := some 10 }

/-- The item settings that a pick copies from the working image (R15). -/
def ItemSettings.ofImage (img : Image) (c : Chan) : ItemSettings :=
  { period := (img.chan.get c).period, lead := (img.chan.get c).lead, hang := (img.chan.get c).hang
    lineEnd := img.lineEnd, idle := img.idle, request := img.request
    cut := img.cut, resume := img.resume, signoff := img.signoff }

/-- A channel record with nothing in hand (R44, R66): OFF, with the preset and the item settings given. -/
def Channel.blank (preset : Nat) (item : ItemSettings) (line : LineSection) : Channel :=
  { state := .off, onAir := none, segment := none, item := item, follower := none, pendingRetune := none
    pendingHold := none, stopPending := false, stopAtBoundary := false, returnHeld := false, absenceSeen := false
    readyCount := 0, readyView := true, recoveryPending := false, preset := preset, lead := none, hang := none
    retuneLimit := none, strobe := none, period := none, retune := none, offWaits := false, tx := none, rest := []
    textPosition := 0, lineFinal := false, waiting := false, cutDecided := false, decided := none, fixed := none
    pick := .none, codeDue := false, call := CallUnit.reset, fetch := Fetcher.reset, line := line }

/-- The Rack Port after power-on, with MASK from the working image (R177). -/
def Rack.powerOn (mask : Word) : Rack :=
  { run := false, basesOpen := true, rackBase := 0, pageBase := 0, sweepTimer := none, latch := false, sweep := none
    sweepCount := 0, posted := 0, held := 0, epoch := 1, seq := 1, events := 0, mask := mask, backlog := []
    pendingTakes := [], abandon := List.range 128 }

/-- A channel right after power-on with the factory settings: its start-up retune to preset 0 has begun (R42, R44). -/
def Channel.factoryReset (c : Chan) : Channel :=
  { Channel.blank 0 (ItemSettings.ofImage Image.factory c) LineSection.powerOn with
    state := .retuning, strobe := some 10, retuneLimit := some 45000 }

/-- The part right after power-on (R3, R42, R44, R177, R178, R179). The stored image is the factory image with a good
checksum: the spec does not say what a new card stores (DESIGN CHOICE, unsafe; notes/assumptions/2.md). The RESET input
is absent: the spec does not give its level at power-on (DESIGN CHOICE, unsafe: R165; notes/assumptions/73.md). -/
def State.reset : State :=
  { power := true
    resetPin := false
    clock := { value := 0, isSet := false }
    rack := Rack.powerOn 0x2BD
    store :=
      { stored := { image := Image.factory, checksum := Image.factory.checksum }
        working := Image.factory, staged := none, setup := false, protection := .openLevel
        key := List.replicate 8 0, commit := none, resetWaits := false }
    telex := [], calendar := [], priority := []
    chans := Six.ofFn Channel.factoryReset
    mem := [], fresh := 0, pending := [] }

end Sys2Proof.Machine
end

