-- ==== Sys2Proof/Machine/Flags.lean ====
section
/-! DEFINITION. STATUS, MASK and ATTN (R4, R166), and the output lines that follow from the state (R16, R17, R38,
R162; notes/assumptions/15.md). -/

namespace Sys2Proof.Machine

/-- The flags of STATUS (chapter 10.2, Registers). -/
inductive Flag
  | answer | deferred | fault | lockout | missed | stopKey | rackErr | busErr | noClock | nvErr
deriving DecidableEq, Repr

/-- A flag's bit position (chapter 10.2, Registers). -/
def Flag.bit : Flag → Nat
  | .answer => 0
  | .deferred => 1
  | .fault => 2
  | .lockout => 3
  | .missed => 4
  | .stopKey => 5
  | .rackErr => 6
  | .busErr => 7
  | .noClock => 8
  | .nvErr => 9

/-- The word with the flag's bit alone. -/
def Flag.word (f : Flag) : Word := 1#32 <<< f.bit

/-- Raises an event flag: a flag raised while set stays set (R166). -/
def State.raise (f : Flag) (s : State) : State :=
  { s with rack := { s.rack with events := s.rack.events ||| f.word } }

/-- Raises a flag if a condition holds. -/
def State.raiseIf (b : Bool) (f : Flag) (s : State) : State := if b then s.raise f else s

/-- STATUS as it reads: the event flags, and NOCLOCK while the clock is NOT_SET (R4, R166). -/
def State.status (s : State) : Word :=
  s.rack.events ||| (if s.clock.isSet then 0 else Flag.word .noClock)

/-- ATTN: "asserted while any raw flag is set whose MASK bit is also set" (R166). -/
def State.attn (s : State) : Bool := decide (s.status &&& s.rack.mask ≠ 0)

/-- CONTROL as it reads: RUN in bit 0; SWEEP and RESET read 0 (chapter 10.2). -/
def State.control (s : State) : Word := if s.rack.run then 1 else 0

/-- KEY of a channel (R16): asserted in KEYING, CALLING, SENDING, CLOSING and HANG, and in FAULTED while a
reduced-power relay is carried. -/
def Channel.key (ch : Channel) : Bool :=
  match ch.state with
  | .keying | .calling | .sending | .closing | .hang => true
  | .faulted => ch.onAir.isSome
  | .off | .idle | .unready | .retuning | .held | .lockedOut => false

/-- LOWPWR of a channel (R162): asserted while a relay is carried at reduced power. -/
def Channel.lowpwr (ch : Channel) : Bool := decide (ch.state = .faulted) && ch.onAir.isSome

/-- The TUNE strobe (R38): asserted while its 10 ms timer runs. -/
def Channel.tuneStrobe (ch : Channel) : Bool := ch.strobe.isSome

/-- The AUX line as an output (R17): driven only under the ON_AIR designation, and then it follows KEY. -/
def State.auxOut (s : State) (c : Chan) : Option Bool :=
  match (s.store.working.chan.get c).aux with
  | .onAir => some (s.chans.get c).key
  | .unused | .stopKey => none

end Sys2Proof.Machine
end

