-- ==== Sys2Proof/Machine/Ops.lean ====
section
/-! DEFINITION. The shared operations: host memory, timers, forward distance, access to channels and items, answers,
pick triggers and marking-walk requests. -/

namespace Sys2Proof.Machine

/-! ## Host memory -/

/-- What a byte of host memory that nothing has written reads as (DESIGN CHOICE, unsafe: notes/assumptions/3.md). -/
def Mem.blank : Byte := 0

/-- The byte at an address. -/
def Mem.read : List Host.Cell → Nat → Byte
  | [], _ => Mem.blank
  | (k, v) :: rest, a => if k = a then v else Mem.read rest a

/-- The memory with one byte stored, in canonical form: addresses rising, and no byte equal to the blank one. -/
def Mem.write : List Host.Cell → Nat → Byte → List Host.Cell
  | [], a, b => if b = Mem.blank then [] else [(a, b)]
  | (k, v) :: rest, a, b =>
    if a < k then (if b = Mem.blank then (k, v) :: rest else (a, b) :: (k, v) :: rest)
    else if a = k then (if b = Mem.blank then rest else (a, b) :: rest)
    else (k, v) :: Mem.write rest a b

/-- The memory with a list of bytes stored, in order. -/
def Mem.store (m : List Host.Cell) (cells : List Host.Cell) : List Host.Cell :=
  cells.foldl (fun m cell => Mem.write m cell.1 cell.2) m

/-- The canonical form: addresses strictly rising from a bound, and no blank byte listed. -/
def Mem.wfFrom : Nat → List Host.Cell → Bool
  | _, [] => true
  | lo, (k, v) :: rest => decide (lo ≤ k) && decide (v ≠ Mem.blank) && Mem.wfFrom (k + 1) rest

/-- The canonical form of memory. -/
def Mem.wf (m : List Host.Cell) : Bool := Mem.wfFrom 0 m

/-- A host byte address: an offset from a base register, in the 32-bit bus (notes/assumptions/4.md). -/
def busAddress (base : Word) (offset : Nat) : Nat := (base.toNat + offset) % 4294967296

/-- `n` bytes of memory from an offset of a base. -/
def State.readBytes (s : State) (base : Word) (offset n : Nat) : List Byte :=
  (List.range n).map (fun i => Mem.read s.mem (busAddress base (offset + i)))

/-- Stores bytes at offsets of a base, in order. -/
def State.storeAt (base : Word) (cells : List (Nat × Byte)) (s : State) : State :=
  { s with mem := Mem.store s.mem (cells.map (fun p => (busAddress base p.1, p.2))) }

/-- The host's own stores, made before the step looks. -/
def State.hostStores (bus : Bus) (s : State) : State := { s with mem := Mem.store s.mem bus.writes }

/-- Consecutive bytes as offset and byte pairs. -/
def bytesAt : Nat → List Byte → List (Nat × Byte)
  | _, [] => []
  | offset, b :: rest => (offset, b) :: bytesAt (offset + 1) rest

/-! ## Bus errors -/

/-- A bus that brings nothing: no host store, no error, and no page in this step. -/
def noBus : Bus := { writes := [], errors := [], prompt := [] }

/-- An access of the step ends in a bus error. -/
def busFails (bus : Bus) (a : Access) : Bool := bus.errors.contains a

/-- The bytes of a write of slot `slot` that were stored before its bus error, if it ends in one. -/
def busPart (bus : Bus) (f : Access → Option Nat) : Option Nat := bus.errors.findSome? f

/-- The access that writes the ABANDONED answer of a slot. -/
def isAbandonWrite (slot : Nat) : Access → Option Nat
  | .abandonWrite k n => if k = slot then some n else none
  | _ => none

/-- The access that repeats the pending intake write of a slot. -/
def isTakeAgain (slot : Nat) : Access → Option Nat
  | .takeAgain k n => if k = slot then some n else none
  | _ => none

/-- The access that writes the answer of a slot. -/
def isAnswer (slot : Nat) : Access → Option Nat
  | .answer k n => if k = slot then some n else none
  | _ => none

/-- The access that writes the progress of a slot. -/
def isProgress (slot : Nat) : Access → Option Nat
  | .progress k n => if k = slot then some n else none
  | _ => none

/-- The access that writes the rack header. -/
def isHeader : Access → Option Nat
  | .header n => some n
  | _ => none

/-- The access that writes the filing sequence and TAKEN of a slot. -/
def isTake (slot : Nat) : Access → Option Nat
  | .take k n => if k = slot then some n else none
  | _ => none

/-- The access that writes the image blocks. -/
def isImageWrite : Access → Option Nat
  | .imageWrite n => some n
  | _ => none

/-- The bytes of a write that are stored before its bus error: never its last one (R174: the error is of the write as
a whole, and its state byte, written last, is not made), in the order of the list, which within a field, a progress write
and a header write is that of rising offset (DESIGN CHOICE, unsafe: notes/assumptions/72.md). -/
def partWrite (n : Nat) (cells : List (Nat × Byte)) : List (Nat × Byte) := cells.take (min n (cells.length - 1))

/-! ## Time -/

/-- The forward distance from time of day `x` to time of day `y` (R10). -/
def forward (x y : Nat) : Nat := (y + dayMs - x % dayMs) % dayMs

/-- A tick of a duration timer (R12): one millisecond less; a timer that has run out waits for its expiry. -/
def tickTimer : Option Nat → Option Nat
  | none => none
  | some n => some (n - 1)

/-- A timer has run out: its expiry has come (R12). -/
def expired (t : Option Nat) : Bool := decide (t = some 0)

/-- The completion time and clock indication of an answer made now (R5). -/
def State.stamp (s : State) : Nat × Bool := if s.clock.isSet then (s.clock.value, false) else (0, true)

/-! ## Channels and channel masks -/

/-- A channel's record. -/
def State.chan (s : State) (c : Chan) : Channel := s.chans.get c

/-- A channel's record changed by a function. -/
def State.setChan (c : Chan) (f : Channel → Channel) (s : State) : State :=
  { s with chans := s.chans.set c (f (s.chans.get c)) }

/-- A channel is in a mask: bit n−1 stands for channel n (chapter 10.2). -/
def inMask (mask : BitVec 8) (c : Chan) : Bool := mask.getLsbD c.index

/-- The channels of a mask, in channel order. -/
def maskChans (mask : BitVec 8) : List Chan := Chan.all.filter (inMask mask)

/-- A mask less one channel. -/
def maskLess (mask : BitVec 8) (c : Chan) : BitVec 8 := mask &&& ~~~(1#8 <<< c.index)

/-- The mask of the channels whose enabled setting is ON in the working image. -/
def enabledMask (img : Image) : BitVec 8 :=
  Chan.all.foldl (fun m c => if (img.chan.get c).enabled then m ||| (1#8 <<< c.index) else m) 0

/-- Applies an operation to each channel of a list, in order. -/
def eachChan (f : Chan → State → State) (cs : List Chan) (s : State) : State := cs.foldl (fun s c => f c s) s

/-- The channel whose Page Fetcher works for a mask: its lowest-numbered one, or channel 1 if it is empty
(R139, R147). -/
def walkerOf (mask : BitVec 8) : Chan :=
  match maskChans mask with
  | c :: _ => c
  | [] => .c1

/-- A pick trigger (R21): in IDLE the pick is made in this event, in HANG at the next character boundary, and in every
other state it leaves nothing behind. -/
def trigger (c : Chan) (s : State) : State :=
  match (s.chan c).state with
  | .idle => s.setChan c (fun ch => { ch with pick := .now })
  | .hang => s.setChan c (fun ch => { ch with pick := if ch.pick = .now then .now else .atBoundary })
  | _ => s

/-! ## Items, entries and dockets held -/

/-- The telex item of a slot. -/
def State.telexAt (s : State) (slot : Nat) : Option TelexItem := s.telex.find? (fun i => i.slot == slot)

/-- Changes the telex item of a slot. -/
def State.setTelex (slot : Nat) (f : TelexItem → TelexItem) (s : State) : State :=
  { s with telex := s.telex.map (fun i => if i.slot = slot then f i else i) }

/-- A channel's queue, first place first (R71). -/
def State.queue (s : State) (c : Chan) : List TelexItem := s.telex.filter (fun i => i.channel == c)

/-- The calendar entry of a slot. -/
def State.entryAt (s : State) (slot : Nat) : Option CalEntry := s.calendar.find? (fun e => e.slot == slot)

/-- Changes the calendar entry of a slot. -/
def State.setEntry (slot : Nat) (f : CalEntry → CalEntry) (s : State) : State :=
  { s with calendar := s.calendar.map (fun e => if e.slot = slot then f e else e) }

/-- The Priority List's entry of a slot. -/
def State.prioAt (s : State) (slot : Nat) : Option PrioEntry := s.priority.find? (fun e => e.slot == slot)

/-- Changes the Priority List's entry of a slot. -/
def State.setPrio (slot : Nat) (f : PrioEntry → PrioEntry) (s : State) : State :=
  { s with priority := s.priority.map (fun e => if e.slot = slot then f e else e) }

/-- A channel holds a slot as a pending HOLD, a pending RETUNE or a retune in progress (R164). -/
def Channel.holdsSlot (ch : Channel) (slot : Nat) : Bool :=
  decide (ch.pendingHold = some slot) || decide (ch.retune = some slot)
    || (match ch.pendingRetune with
        | some p => p.1 == slot
        | none => false)

/-- The answer backlog holds a slot. -/
def State.inBacklog (s : State) (slot : Nat) : Bool := s.rack.backlog.any (fun a => a.slot == slot)

/-- The part holds a slot (R164). -/
def State.holdsSlot (s : State) (slot : Nat) : Bool :=
  (s.telexAt slot).isSome || (s.entryAt slot).isSome || (s.prioAt slot).isSome
    || Chan.all.any (fun c => (s.chan c).holdsSlot slot)
    || (match s.store.commit with
        | some k => k.slot == slot
        | none => false)
    || s.inBacklog slot

/-! ## Answers and marking walks -/

/-- Places an answer at the end of the backlog, stamped with the completion time (R5, R168). -/
def pushAnswer (slot : Nat) (result : Result) (reason : Option Reason) (progress : Progress) (expected : Expected)
    (seq : Option Nat) (walk : Bool) (s : State) : State :=
  let a : Answer :=
    { slot := slot, result := result, reason := reason, time := s.stamp.1, noclock := s.stamp.2, progress := progress
      expected := expected, seq := seq, walk := walk }
  { s with rack := { s.rack with backlog := s.rack.backlog ++ [a] } }

/-- The answer of a docket that was taken (R168). -/
def answerTaken (slot : Nat) (result : Result) (progress : Progress) (walk : Bool) (s : State) : State :=
  pushAnswer slot result none progress .taken none walk s

/-- Answers a docket the part may hold. -/
def answerHeld (slot : Option Nat) (result : Result) (s : State) : State :=
  match slot with
  | some k => answerTaken k result .none false s
  | none => s

/-- The filing sequence counter advanced: from 4,294,967,295 to 1 (R171). -/
def nextSeq (n : Nat) : Nat := if n = 4294967295 then 1 else n + 1

/-- An answer made at intake: it carries the counter's value, and the counter advances (R171). -/
def answerAtIntake (slot : Nat) (result : Result) (reason : Option Reason) (progress : Progress) (s : State) : State :=
  let s1 := pushAnswer slot result reason progress .filed (some s.rack.seq) false s
  { s1 with rack := { s1.rack with seq := nextSeq s.rack.seq } }

/-- Refuses a docket (R171). -/
def refuse (slot : Nat) (reason : Reason) (s : State) : State := answerAtIntake slot .refused (some reason) .none s

/-- Answers a docket DONE at once (R171). -/
def answerDone (slot : Nat) (s : State) : State := answerAtIntake slot .done none .none s

/-- Leaves a docket FILED for lack of room: the held count rises and DEFERRED is raised (R171). -/
def holdDocket (s : State) : State :=
  { (s.raise .deferred) with rack := { (s.raise .deferred).rack with held := s.rack.held + 1 } }

/-- Asks a channel's Page Fetcher for a marking walk; walks are made in the order requested (R147). -/
def requestWalk (c : Chan) (slot page limit : Nat) (s : State) : State :=
  s.setChan c (fun ch =>
    { ch with fetch := { ch.fetch with walks := ch.fetch.walks ++ [{ slot := slot, page := page, limit := limit }] } })

/-! ## Free choices -/

/-- The value of the next free choice. -/
def State.freeChoice (s : State) : Nat := Config.choice s.fresh

/-- The state once a free choice has been used. -/
def State.useChoice (s : State) : State := { s with fresh := s.fresh + 1 }

/-! ## The power switch -/

/-- A command acts on a card that has power, and does nothing to one that has none. -/
def powered (f : State → State) (s : State) : State := if s.power then f s else s

end Sys2Proof.Machine
end

