-- ==== Sys2Proof/Machine/Operands.lean ====
section
/-! DEFINITION. The layouts of chapter 10.2: dockets as read from the rack, answers, progress and the header as written
into it, pages as read from the page area, and the codes of results, reasons and outcomes. -/

namespace Sys2Proof.Machine

/-! ## Codes -/

/-- The result codes (chapter 10.2, Codes). -/
def Result.code : Result → Byte
  | .done => 1
  | .unconfirmed => 2
  | .partly => 3
  | .failed => 4
  | .withdrawn => 5
  | .noContact => 6
  | .wrongStation => 7
  | .starved => 8
  | .badText => 9
  | .busFault => 10
  | .closed => 11
  | .abandoned => 12
  | .refused => 13

/-- The refusal reason codes (chapter 10.2, Codes). -/
def Reason.code : Reason → Byte
  | .badKind => 1
  | .badChannel => 2
  | .channelOff => 3
  | .channelFaulted => 4
  | .badSeries => 5
  | .badTime => 6
  | .badPair => 7
  | .badText => 8
  | .clockNotSet => 9
  | .notHeld => 10
  | .notWithdrawable => 11
  | .alreadyEnding => 12
  | .inSetup => 13
  | .notInSetup => 14
  | .channelsBusy => 15
  | .keyWrong => 16
  | .fixed => 17
  | .lineActive => 18

/-- The refusal reason byte: "0 when the result is not REFUSED" (chapter 10.2). -/
def reasonCode : Option Reason → Byte
  | some r => r.code
  | none => 0

/-- The outcome codes (chapter 10.2). -/
def ChanOutcome.code : ChanOutcome → Byte
  | .pending => 0
  | .onAir => 1
  | .sent => 2
  | .failed => 3
  | .missed => 4
  | .notUsed => 5

/-- The channel state codes of a SNAPSHOT: OFF 0 to LOCKED_OUT 11 (chapter 10.2). -/
def ChState.code : ChState → Byte
  | .off => 0
  | .idle => 1
  | .unready => 2
  | .keying => 3
  | .calling => 4
  | .sending => 5
  | .closing => 6
  | .hang => 7
  | .retuning => 8
  | .held => 9
  | .faulted => 10
  | .lockedOut => 11

/-- The fault kind codes (chapter 10.2). -/
def FaultKind.code : FaultKind → Byte
  | .none => 0
  | .alarm => 1
  | .notReady => 2
  | .tuneFail => 3

/-- The docket kind codes that have a row of their own (chapter 10.2, Codes). -/
inductive Kind
  | telex | bulletin | urgent | distress | withdraw | hold | release | retune | clearfault | quieten | setclock
  | snapshot | setup | setupExit | settingsRead | settingsWrite | commit
deriving DecidableEq, Repr

/-- The kind of a kind code; every other code has none (R172). -/
def Kind.ofCode : Nat → Option Kind
  | 1 => some .telex
  | 2 => some .bulletin
  | 3 => some .urgent
  | 4 => some .distress
  | 5 => some .withdraw
  | 6 => some .hold
  | 7 => some .release
  | 8 => some .retune
  | 9 => some .clearfault
  | 10 => some .quieten
  | 11 => some .setclock
  | 12 => some .snapshot
  | 13 => some .setup
  | 14 => some .setupExit
  | 15 => some .settingsRead
  | 16 => some .settingsWrite
  | 17 => some .commit
  | _ => none

/-! ## Slots -/

/-- The offset of a slot from RACK BASE (chapter 10.2: "Slot i lies at RACK BASE + 64 + 128·i"). -/
def slotOffset (slot : Nat) : Nat := 64 + 128 * slot

/-- `n` bytes of a slot from an offset. -/
def State.slotBytes (s : State) (slot offset n : Nat) : List Byte :=
  s.readBytes s.rack.rackBase (slotOffset slot + offset) n

/-- A field of `n` bytes of a slot. -/
def State.slotField (s : State) (slot offset n : Nat) : Nat := leNat (s.slotBytes slot offset n)

/-- Stores bytes at offsets of a slot. -/
def State.storeSlot (slot : Nat) (cells : List (Nat × Byte)) (s : State) : State :=
  s.storeAt s.rack.rackBase (cells.map (fun p => (slotOffset slot + p.1, p.2)))

/-- A slot's state byte: 0 EMPTY, 1 FILED, 2 TAKEN, 3 ANSWERED (chapter 10.2). -/
def State.slotState (s : State) (slot : Nat) : Nat := s.slotField slot 0 1

/-- The kind of the docket in a slot. -/
def State.slotKind (s : State) (slot : Nat) : Option Kind := Kind.ofCode (s.slotField slot 1 1)

/-- The channel field of a docket (chapter 10.2: offset 32). -/
def State.docketChannel (s : State) (slot : Nat) : Option Chan := Chan.ofNumber (s.slotField slot 32 1)

/-- The body of a TELEX docket (R67; chapter 10.2). -/
structure TelexDocket where
  channel : Nat
  priority : Bool
  callLength : Nat
  answerLength : Nat
  firstPage : Nat
  call : List Byte
  answer : List Byte
deriving DecidableEq, Repr

/-- Reads the body of a TELEX docket (chapter 10.2: 1 is PRIORITY, any other value ORDINARY). -/
def State.telexDocket (s : State) (slot : Nat) : TelexDocket :=
  { channel := s.slotField slot 32 1
    priority := decide (s.slotField slot 33 1 = 1)
    callLength := s.slotField slot 34 1
    answerLength := s.slotField slot 35 1
    firstPage := s.slotField slot 36 2
    call := (s.slotBytes slot 38 8).take (s.slotField slot 34 1)
    answer := (s.slotBytes slot 46 20).take (s.slotField slot 35 1) }

/-- The body of a BULLETIN docket (R100; chapter 10.2). -/
structure BulletinDocket where
  series : Nat
  mask : BitVec 8
  toleranceMin : Nat
  repetitions : Nat
  intervalMin : Nat
  firstPage : Nat
  start : Nat
  partner : Option Nat
deriving DecidableEq, Repr

/-- Reads the body of a BULLETIN docket (chapter 10.2: "Slot none is 255"). -/
def State.bulletinDocket (s : State) (slot : Nat) : BulletinDocket :=
  { series := s.slotField slot 32 1
    mask := BitVec.ofNat 8 (s.slotField slot 33 1)
    toleranceMin := s.slotField slot 34 1
    repetitions := s.slotField slot 35 1
    intervalMin := s.slotField slot 36 2
    firstPage := s.slotField slot 38 2
    start := s.slotField slot 40 4
    partner := if s.slotField slot 44 1 = 255 then none else some (s.slotField slot 44 1) }

/-! ## Writing the rack -/

/-- The bytes of one channel of a SNAPSHOT (R43; chapter 10.2). -/
def ChanView.bytes (v : ChanView) : List Byte :=
  [v.state.code, BitVec.ofNat 8 v.preset, BitVec.ofNat 8 v.faults, v.lastKind.code, BitVec.ofNat 8 v.queued,
   match v.onAir with
   | some slot => BitVec.ofNat 8 slot
   | none => 255]

/-- The six values, in channel order. -/
def Six.toList {α : Type} (x : Six α) : List α := Chan.all.map x.get

/-- The progress bytes of a docket at their offsets (chapter 10.2, Docket bodies). They are written by rising offset,
which decides what a write that ends in a bus error has stored (DESIGN CHOICE, unsafe: R169 gives no order;
notes/assumptions/72.md). -/
def Progress.cells : Progress → List (Nat × Byte)
  | .none => []
  | .telex sent offset cuts attempts =>
    bytesAt 68 (leBytes 4 sent ++ leBytes 4 offset ++ leBytes 1 cuts ++ leBytes 1 attempts)
  | .bulletin done last sentCount =>
    bytesAt 48 (BitVec.ofNat 8 done :: last.toList.map ChanOutcome.code)
      ++ bytesAt 56 (sentCount.toList.map (BitVec.ofNat 8))
  | .priority out => bytesAt 48 (out.toList.map ChanOutcome.code)
  | .snapshot views => (Chan.all.map (fun c => bytesAt (48 + 8 * c.index) (views.get c).bytes)).flatten
  | .clamped n => bytesAt 48 (leBytes 2 n)

/-- The clock indication byte: 0 clock SET, 1 NOCLOCK (chapter 10.2). -/
def indication (noclock : Bool) : Byte := boolCode noclock

/-- The filing sequence field of a slot. -/
def seqCells (seq : Option Nat) : List (Nat × Byte) :=
  match seq with
  | some n => bytesAt 8 (leBytes 4 n)
  | none => []

/-- The bytes an answer writes into its slot, in the order of R168: the result, the reason, the completion time and
the indication; the filing sequence, for an answer made at intake; the progress; last the state ANSWERED. -/
def answerCells (result : Result) (reason : Option Reason) (time : Nat) (noclock : Bool) (seq : Option Nat)
    (progress : Progress) : List (Nat × Byte) :=
  [(2, result.code), (3, reasonCode reason)] ++ bytesAt 12 (leBytes 4 time) ++ [(16, indication noclock)]
    ++ seqCells seq ++ progress.cells ++ [(0, 3)]

/-- The bytes that take a docket: the filing sequence and then the state TAKEN (R171). -/
def takeCells (seq : Nat) : List (Nat × Byte) := seqCells (some seq) ++ [(0, 2)]

/-- The bytes of the rack header (R170; chapter 10.2), written by rising offset, which decides what a write that ends in
a bus error has stored (DESIGN CHOICE, unsafe: R170 gives no order; notes/assumptions/72.md). -/
def State.headerCells (s : State) : List (Nat × Byte) :=
  bytesAt 0 (leBytes 2 s.rack.epoch ++ leBytes 2 s.rack.posted ++ leBytes 2 s.rack.sweepCount ++ leBytes 2 s.rack.held
    ++ leBytes 4 s.clock.value ++ [boolCode s.clock.isSet, boolCode s.store.setup])

/-! ## Pages -/

/-- A page's header (R138; chapter 10.2). -/
structure PageHeader where
  state : Nat
  count : Nat
  next : Nat
deriving DecidableEq, Repr

/-- The offset of a page from PAGE BASE (chapter 8.1: "Page n lies at PAGE BASE + 256·n"). -/
def pageOffset (n : Nat) : Nat := 256 * n

/-- Reads a page's header. -/
def State.pageHeader (s : State) (n : Nat) : PageHeader :=
  { state := leNat (s.readBytes s.rack.pageBase (pageOffset n) 1)
    count := leNat (s.readBytes s.rack.pageBase (pageOffset n + 1) 1)
    next := leNat (s.readBytes s.rack.pageBase (pageOffset n + 2) 2) }

/-- Reads the counted codes of a page. -/
def State.pageText (s : State) (n count : Nat) : List Byte := s.readBytes s.rack.pageBase (pageOffset n + 8) count

/-- A page is WRITTEN (chapter 10.2: code 1). -/
def PageHeader.written (h : PageHeader) : Bool := decide (h.state = 1)

/-- A page's count is in range (R138). -/
def PageHeader.countOk (h : PageHeader) : Bool := decide (1 ≤ h.count ∧ h.count ≤ 248)

/-- A number names a page, 1–4095 (R138). -/
def isPage (n : Nat) : Bool := decide (1 ≤ n ∧ n ≤ 4095)

/-- A next field reads END (chapter 10.2: 0xFFFF). -/
def isEnd (n : Nat) : Bool := decide (n = 65535)

/-- A next field reads MORE (chapter 10.2: 0xFFFE). -/
def isMore (n : Nat) : Bool := decide (n = 65534)

/-- Marks a page SENT: the one write the Page Fetcher makes to a page (R138). -/
def State.markSent (n : Nat) (s : State) : State := s.storeAt s.rack.pageBase [(pageOffset n, 2)]

end Sys2Proof.Machine
end

