-- ==== Sys2Proof/Machine/Fit.lean ====
section
/-! DEFINITION. Fitting telex around the windows: available time (R11), the start and continuation tests (R49, R54),
the closing-check allowance (R62), the lookahead-wait threshold (R59) and the preemption sources (R53). -/

namespace Sys2Proof.Machine

/-- An entry bounds a channel: WAITING, not a follower, the channel in its mask, outcome PENDING (R11). -/
def CalEntry.bounds (e : CalEntry) (c : Chan) : Bool :=
  decide (e.phase = some .waiting) && decide (e.role ≠ .follower) && inMask e.mask c
    && decide (e.out.get c = .pending)

/-- The nearer of two (distance, guard) pairs: the smaller distance, and of equal ones the larger guard (R11). -/
def nearer (x y : Nat × Nat) : Nat × Nat :=
  if y.1 < x.1 then y else if y.1 = x.1 then (if x.2 < y.2 then y else x) else x

/-- The nearest of a list of (distance, guard) pairs. -/
def nearest : List (Nat × Nat) → Option (Nat × Nat)
  | [] => none
  | p :: rest =>
    match nearest rest with
    | none => some p
    | some q => some (nearer p q)

/-- The available time A of a channel now, none while it is unbounded (R11). -/
def State.available (s : State) (c : Chan) : Option Int :=
  (nearest ((s.calendar.filter (fun e => e.bounds c)).map (fun e =>
    (forward s.clock.value e.start, s.store.working.guardMs e.series)))).map
    (fun p => (p.1 : Int) - (p.2 : Int))

/-- A need fits in the available time: it is at most A, or A is unbounded (R49, R54). -/
def fits (need : Nat) (a : Option Int) : Bool :=
  match a with
  | none => true
  | some v => decide ((need : Int) ≤ v)

/-- The answerback timeout in milliseconds (R49: "Answerback timeout setting × 1000"). -/
def Image.answerbackMs (img : Image) : Nat := img.answerbackSeconds * 1000

/-- W of the start test: (Q + 1) × P + Tab with a call code, 0 for a collective item (R49). -/
def callNeed (img : Image) (c : Chan) (item : TelexItem) : Nat :=
  if item.callCode = [] then 0
  else (item.callCode.length + 1) * (img.chan.get c).period + img.answerbackMs

/-- The need of the start test: U + W + (R + L + C or Z) × P (R49). `up`: the carrier is up. `resumed`: the item is
INTERRUPTED. `len` and `final`: the first line. The lengths are those of the working settings. -/
def startNeed (img : Image) (c : Chan) (up : Bool) (item : TelexItem) (resumed : Bool) (len : Nat) (final : Bool) :
    Nat :=
  (if up then 0 else (img.chan.get c).lead) + callNeed img c item
    + ((if resumed then img.resume.length else 0) + len + (if final then img.signoff.length else img.cut.length))
      * (img.chan.get c).period

/-- The need of the continuation test: (L + C or Z) × P, from the item settings (R54). -/
def continueNeed (item : ItemSettings) (len : Nat) (final : Bool) : Nat :=
  (len + (if final then item.signoff.length else item.cut.length)) * item.period

/-- The need of the closing check: 1 × P + Tab (R62). -/
def closingNeed (img : Image) (item : ItemSettings) : Nat := item.period + img.answerbackMs

/-- The threshold of the lookahead wait: (C + 1) × P (R58, R59). -/
def waitThreshold (item : ItemSettings) : Nat := (item.cut.length + 1) * item.period

/-- A is at or below the threshold of the lookahead wait (R58, R59); never while A is unbounded. -/
def State.atThreshold (s : State) (c : Chan) : Bool :=
  match s.available c with
  | none => false
  | some v => decide (v ≤ (waitThreshold (s.chan c).item : Int))

/-- An urgent bulletin waits on a channel: PENDING or FAILED there, its urgent limit not passed, not withdrawn
(R22 item 4, R53). -/
def PrioEntry.urgentOn (e : PrioEntry) (c : Chan) : Bool :=
  !e.distress && !e.limitPassed && !e.withdrawn && (decide (e.out.get c = .pending) || decide (e.out.get c = .failed))

/-- A relay is pending on a channel (R22 item 1). -/
def PrioEntry.relayOn (e : PrioEntry) (c : Chan) : Bool := e.distress && decide (e.out.get c = .pending)

/-- A DUE entry waits on a channel: not a follower, PENDING or FAILED there, its latest start not passed, not
withdrawn (R22 item 5, R53). -/
def CalEntry.dueOn (e : CalEntry) (c : Chan) : Bool :=
  decide (e.phase = some .due) && decide (e.role ≠ .follower) && inMask e.mask c && !e.limitPassed && !e.withdrawn
    && (decide (e.out.get c = .pending) || decide (e.out.get c = .failed))

/-- The earliest relay pending on a channel, in filing order. -/
def State.pendingRelay (s : State) (c : Chan) : Option PrioEntry := s.priority.find? (fun e => e.relayOn c)

/-- The earliest urgent bulletin waiting on a channel, in filing order. -/
def State.waitingUrgent (s : State) (c : Chan) : Option PrioEntry := s.priority.find? (fun e => e.urgentOn c)

/-- An urgent bulletin or a due bulletin is a preemption source on a channel (R53, R90). -/
def State.trafficSource (s : State) (c : Chan) : Bool :=
  s.priority.any (fun e => e.urgentOn c) || s.calendar.any (fun e => e.dueOn c)

/-- A preemption source of R53 is present on a channel. -/
def State.preempted (s : State) (c : Chan) : Bool := s.trafficSource c || (s.chan c).pendingHold.isSome

end Sys2Proof.Machine
end

