-- ==== Sys2Proof/Machine/Pages.lean ====
section
/-! DEFINITION. Text pages and chains (chapter 8): the lines of a telex text (R45), the telex reading (R142 to R144),
the pages passed and marked SENT (R146), the resume position (R143), the intake walk (R139) and the marking walk
(R147). -/

namespace Sys2Proof.Machine

/-! ## Lines -/

/-- Takes codes of a page into the line being gathered: up to and including a line-end code, and at most 128 in the
line (R45). Answers the line, the codes left, and whether the line has ended. -/
def takeLine (lineEnd : Byte) : List Byte → List Byte → List Byte × List Byte × Bool
  | [], line => (line, [], false)
  | code :: rest, line =>
    if code = lineEnd ∨ line.length + 1 = 128 then (line ++ [code], rest, true)
    else takeLine lineEnd rest (line ++ [code])

/-- Takes the codes of the page held into the reading's line, and judges the page's next field where the reading
reaches its last counted code (R45, R47, R142; notes/assumptions/22.md). `cp` is the page held. -/
def Reading.takeFrom (rd : Reading) (cp : PageCopy) : Reading :=
  let t := takeLine rd.lineEnd cp.rest rd.line
  let got : Reading := { rd with line := t.1, copy := some { cp with rest := t.2.1 }, request := none }
  if t.2.1 ≠ [] then { got with condition := .settled false }
  else if isEnd cp.next then
    (if t.2.2 ∨ t.1 ≠ [] ∨ rd.first then { got with condition := .settled true }
     else { got with condition := .settledNone })
  else if isPage cp.next then
    (if t.2.2 then { got with condition := .settled false }
     else { got with request := some (.read cp.next cp.walked (cp.start + cp.count) 0), condition := .inProgress })
  else if isMore cp.next then
    (if t.2.2 then { got with condition := .settled false } else { got with condition := .blocked })
  else { got with condition := .unreadable .badText }

/-- The reading goes on from the page it holds. -/
def Reading.advance (rd : Reading) : Reading :=
  match rd.copy with
  | some cp => rd.takeFrom cp
  | none => rd

/-- The first-line reading of a head item (R48, R143): an INTERRUPTED item is read from its resume position, a QUEUED
one from its first page with pages walked at 0. Its line-end code is that of the working image
(notes/assumptions/21.md). One whose resume position stands at the end of a chain that has reached END has an empty
first line, which is final and needs no page (R48; DEDUCED, unsafe: R143 would have the page reread, which is SENT by
then; notes/assumptions/54.md). -/
def firstReading (img : Image) (item : TelexItem) (resume : Option ResumePos) : Reading :=
  let pos : ResumePos :=
    match item.state, resume with
    | .interrupted, some p => p
    | _, _ => { page := item.firstPage, index := 0, walked := 1, ended := false }
  { slot := item.slot, first := true, lineEnd := img.lineEnd, line := [], copy := none
    request := if pos.ended then none else some (.read pos.page (pos.walked - 1) (item.offset - pos.index) pos.index)
    condition := if pos.ended then .settled true else .inProgress }

/-- The lookahead of the line after the one that begins (R47): it reads on from the page held. -/
def Reading.nextLine (rd : Reading) (lineEnd : Byte) : Reading :=
  Reading.advance { rd with first := false, lineEnd := lineEnd, line := [], request := none, condition := .inProgress }

/-- A page access of a telex reading completes (R142): the checks in the order of the table, then the codes. A 256th page
fails by the pages walked alone (notes/assumptions/57.md). A resume page read again whose count is now below the resume
index passes these checks and gives no code: its next field is judged at once, and the page after it is placed by the
smaller count (DESIGN CHOICE, unsafe: R143 does not speak of it; notes/assumptions/76.md). -/
def Reading.pageRead (rd : Reading) (page walked start skip : Nat) (failed : Bool) (h : PageHeader)
    (text : List Byte) : Reading :=
  if 255 < walked + 1 then { rd with request := none, condition := .unreadable .badText }
  else if failed then { rd with request := none, condition := .unreadable .busFault }
  else if !h.written then { rd with request := none, condition := .unreadable .badText }
  else if !h.countOk then { rd with request := none, condition := .unreadable .badText }
  else rd.takeFrom
    { num := page, walked := walked + 1, start := start, count := h.count, next := h.next, rest := text.drop skip }

/-- A reread of the next field of the MORE page held completes (R144). -/
def Reading.reread (rd : Reading) (failed : Bool) (next : Nat) : Reading :=
  if failed then { rd with request := none, condition := .unreadable .busFault }
  else
    match rd.copy with
    | some cp => rd.takeFrom { cp with next := next }
    | none => { rd with request := none, condition := .unreadable .badText }

/-! ## Pages passed -/

/-- A page's next field is known to be a page number or END (R146). -/
def ChainPage.nextKnown (p : ChainPage) : Bool := isPage p.next || isEnd p.next

/-- The offset has passed a page's last counted code, and the page's next field is known (R146). -/
def ChainPage.passed (offset : Nat) (p : ChainPage) : Bool := decide (p.start + p.count ≤ offset) && p.nextKnown

/-- The resume position of an offset (R143, R146; notes/assumptions/19.md), from the pages passed at it, the pages not
passed, and the position held before. A last page whose marking write ended in a bus error is passed like any other and
stays the resume page (DESIGN CHOICE, unsafe: notes/assumptions/66.md). -/
def resumeAt (offset : Nat) (before after : List ChainPage) (old : Option ResumePos) : Option ResumePos :=
  match after with
  | p :: _ => some { page := p.num, index := offset - p.start, walked := p.walked, ended := false }
  | [] =>
    match before.getLast? with
    | some p =>
      if isPage p.next then some { page := p.next, index := 0, walked := p.walked + 1, ended := false }
      else some { page := p.num, index := p.count, walked := p.walked, ended := true }
    | none => old

/-- Marks one page of an on-air telex chain SENT; a bus error raises BUSERR and gives the item the decided end
BUS_FAULT if it has none (R146, R148). -/
def markPage (bus : Bus) (c : Chan) (s : State) (p : ChainPage) : State :=
  if busFails bus (.mark p.num) then
    (s.raise .busErr).setChan c (fun ch => { ch with decided := ch.decided.or (some .busFault) })
  else s.markSent p.num

/-- Marks the pages an on-air item's offset has passed, in chain order, and moves the resume position (R146). -/
def markPassed (bus : Bus) (c : Chan) (offset : Nat) (s : State) : State :=
  let chain := (s.chan c).fetch.chain
  let before := chain.takeWhile (ChainPage.passed offset)
  let after := chain.dropWhile (ChainPage.passed offset)
  (before.foldl (markPage bus c) s).setChan c (fun ch =>
    { ch with fetch := { ch.fetch with chain := after, resume := resumeAt offset before after ch.fetch.resume } })

/-! ## Walks -/

/-- How an intake walk ends (R139). -/
inductive WalkEnd
  | good | badText | busFault
deriving DecidableEq, Repr

/-- The intake walk (R139): the checks of one page after another; `n` is how many pages the walk may still read. -/
def intakeWalk (bus : Bus) (s : State) : Nat → Nat → List Nat → WalkEnd
  | 0, _, _ => .badText
  | n + 1, page, seen =>
    if !isPage page || seen.contains page then .badText
    else if busFails bus (.page page) then .busFault
    else
      let h := s.pageHeader page
      if !h.written || !h.countOk then .badText
      else if isEnd h.next then .good
      else if isPage h.next then intakeWalk bus s n h.next (page :: seen)
      else .badText

/-- The pages an intake walk may read (R139). -/
def walkPages : Nat := 64

/-- The marking walk (R147) from a page; `n` is how many pages it may still mark. -/
def markingWalk (bus : Bus) : Nat → Nat → State → State
  | 0, _, s => s
  | n + 1, page, s =>
    if !isPage page then s
    else if busFails bus (.page page) then s.raise .busErr
    else
      let h := s.pageHeader page
      if !h.written then s
      else if busFails bus (.mark page) then s.raise .busErr
      else if isPage h.next then markingWalk bus n h.next (s.markSent page)
      else s.markSent page

/-- The answer of a slot no longer waits for its walk (R147). -/
def walkStopped (slot : Nat) (s : State) : State :=
  { s with rack := { s.rack with
      backlog := s.rack.backlog.map (fun a => if a.slot = slot then { a with walk := false } else a) } }

/-- A marking walk that a part reset or a power loss abandons where it stands (R149): the pages it had reached are
SENT; how many that is, is a free choice. -/
def abandonWalk (c : Chan) (s : State) : State :=
  match (s.chan c).fetch.walks with
  | [] => s
  | w :: _ => markingWalk noBus (s.freeChoice % (w.limit + 1)) w.page s.useChoice

end Sys2Proof.Machine
end

