-- ==== Sys2Proof/Machine/Calendar.lean ====
section
/-! DEFINITION. The Bulletin Calendar (chapter 6): its order, the outcomes of a repetition, settling, catch-up, the end
of an entry, and what it tells the sequencers. -/

namespace Sys2Proof.Machine

/-! ## What the calendar tells the sequencers (R108) -/

/-- A channel is in the lookahead wait and nothing has ended the wait yet (R58, R60). -/
def Channel.waitOpen (ch : Channel) : Bool :=
  ch.waiting && !ch.cutDecided && ch.decided.isNone
    && (match ch.fetch.reading with
        | some rd => decide (rd.condition = .inProgress) || decide (rd.condition = .blocked)
        | none => false)

/-- The Page Fetcher's reading is discarded, with its timers (R47, R144), and with the page access under way for it: a
bus error that would have ended that access raises no BUSERR (DESIGN CHOICE, unsafe: R148 does not speak of it;
notes/assumptions/67.md). -/
def Fetcher.discard (f : Fetcher) : Fetcher := { f with reading := none, chain := [], reread := none, starvation := none }

/-- A channel in the lookahead wait compares A with its threshold; at or below it the cut is decided: the lookahead is
discarded and the starvation timer and the rereads stop (R59). -/
def compareWait (c : Chan) (s : State) : State :=
  if (s.chan c).waitOpen && s.atThreshold c then
    s.setChan c (fun ch => { ch with cutDecided := true, fetch := ch.fetch.discard })
  else s

/-- A follower mark naming a leader is cleared without a report (R108, R118). -/
def dropMark (slot : Nat) (c : Chan) (s : State) : State :=
  s.setChan c (fun ch => if ch.follower = some slot then { ch with follower := none } else ch)

/-! ## The calendar order (R105) -/

/-- `x` stands before `y`: DUE entries first, the largest e first; then WAITING ones, the smallest forward distance
first; ties to the lower series and then the lower filing sequence (R105). -/
def CalEntry.before (now : Nat) (x y : CalEntry) : Bool :=
  let kx : Nat := if x.phase = some .due then 0 else 1
  let ky : Nat := if y.phase = some .due then 0 else 1
  let tie : Bool := decide (x.series < y.series) || (decide (x.series = y.series) && decide (x.seq < y.seq))
  if kx ≠ ky then decide (kx < ky)
  else if kx = 0 then decide (y.e < x.e) || (decide (x.e = y.e) && tie)
  else decide (forward now x.start < forward now y.start)
    || (decide (forward now x.start = forward now y.start) && tie)

/-- An entry placed into an ordered list. -/
def insertEntry (now : Nat) (x : CalEntry) : List CalEntry → List CalEntry
  | [] => [x]
  | y :: rest => if x.before now y then x :: y :: rest else y :: insertEntry now x rest

/-- The entries that are not followers, in calendar order at a clock value. -/
def State.orderedAt (s : State) (now : Nat) : List CalEntry :=
  (s.calendar.filter (fun e => decide (e.role ≠ .follower))).foldr (insertEntry now) []

/-- The entries that are not followers, in calendar order. -/
def State.ordered (s : State) : List CalEntry := s.orderedAt s.clock.value

/-- The slots of an entry's pair, leader first; the entry's own slot alone when it is single (R114). -/
def CalEntry.pair (e : CalEntry) : List Nat :=
  match e.role, e.partner with
  | .leader, some p => [e.slot, p]
  | .follower, some p => [p, e.slot]
  | _, _ => [e.slot]

/-- The slot of the entry that carries the schedule: the leader's, or the entry's own. -/
def CalEntry.lead (e : CalEntry) : Nat :=
  match e.role, e.partner with
  | .follower, some p => p
  | _, _ => e.slot

/-- The first DUE entry waiting on a channel, in calendar order (R22 item 5). -/
def State.dueEntry (s : State) (c : Chan) : Option CalEntry := s.ordered.find? (fun e => e.dueOn c)

/-! ## Recording -/

/-- The last-repetition outcomes: those of the channels in the mask, NOT_USED on the others (R112). -/
def CalEntry.shown (e : CalEntry) : Six ChanOutcome :=
  Six.ofFn (fun c => if inMask e.mask c then e.out.get c else .notUsed)

/-- How many channels of the mask satisfy a test of their outcome. -/
def CalEntry.tally (e : CalEntry) (p : ChanOutcome → Bool) : Nat :=
  ((maskChans e.mask).filter (fun c => p (e.out.get c))).length

/-- The SENT counts with the present outcomes added. -/
def CalEntry.countSent (e : CalEntry) : Six Nat :=
  Six.ofFn (fun c => e.sentCount.get c + (if inMask e.mask c ∧ e.out.get c = .sent then 1 else 0))

/-- Steps 1 and 2 of R112: the outcomes are recorded, and the repetition is counted. -/
def CalEntry.record (e : CalEntry) : CalEntry :=
  { e with
    last := e.shown
    sentCount := e.countSent
    sentTally := e.sentTally + e.tally (fun o => decide (o = .sent))
    unsentTally := e.unsentTally + e.tally (fun o => decide (o = .failed) || decide (o = .missed))
    done := e.done + 1
    left := e.left - 1
    changed := true }

/-- The outcomes of a new repetition: PENDING on each channel of the mask, NOT_USED on the others. -/
def pendingOn (mask : BitVec 8) : Six ChanOutcome :=
  Six.ofFn (fun c => if inMask mask c then .pending else .notUsed)

/-- The entry's outcomes and marks at the start of a repetition (R112 step 4). -/
def CalEntry.fresh (e : CalEntry) : CalEntry :=
  { e with out := pendingOn e.mask, limitPassed := false, passing := false, arrived := false }

/-- An entry at its next repetition: its start time one interval on, wrapped round the day (R10, R112). -/
def nextRepetition (e : CalEntry) : CalEntry := CalEntry.fresh { e with start := (e.start + e.interval) % dayMs }

/-- One repetition counted MISSED on every channel (R113 steps 1 and 2). -/
def CalEntry.miss (e : CalEntry) : CalEntry :=
  CalEntry.record { e with out := Six.ofFn (fun c => if inMask e.mask c then .missed else .notUsed) }

/-- A function applied a number of times. -/
def repeatFn {α : Type} (f : α → α) : Nat → α → α
  | 0, x => x
  | n + 1, x => repeatFn f n (f x)

/-- How many repetitions the catch-up rule misses (R113), of `left`, with e as it stands: while e is 0 or more and the
tolerance less e is below 0. -/
def missCount (tolerance interval : Int) : Nat → Int → Nat
  | 0, _ => 0
  | left + 1, e => if 0 ≤ e ∧ tolerance - e < 0 then missCount tolerance interval left (e - interval) + 1 else 0

/-! ## The end of an entry (R117, R119) -/

/-- The result from the tallies (R117). -/
def CalEntry.result (e : CalEntry) : Result :=
  if e.sentTally = 0 then .failed else if e.unsentTally = 0 then .done else .partly

/-- Steps 1, 3, 4 and 5 of R117: the answer, the marking walk, and the leaving, which the channels of the mask are
told of (R108). -/
def endEntry (slot : Nat) (result : Result) (s : State) : State :=
  match s.entryAt slot with
  | none => s
  | some e =>
    let s1 := answerTaken slot result (.bulletin e.done e.last e.sentCount) true s
    let s2 := requestWalk (walkerOf e.mask) slot e.firstPage walkPages s1
    let s3 : State := { s2 with calendar := s2.calendar.filter (fun x => x.slot != slot) }
    eachChan (fun c s => trigger c (dropMark slot c s)) (maskChans e.mask) s3

/-- Entries end together, leader first, each with the result of its own tallies (R117). -/
def endByTallies (slots : List Nat) (s : State) : State :=
  slots.foldl (fun s slot =>
    match s.entryAt slot with
    | some e => endEntry slot e.result s
    | none => s) s

/-- The record of an entry that ends WITHDRAWN (R119): the current repetition's outcomes
are shown and its SENT outcomes counted, and the repetition itself is not. -/
def CalEntry.closeOut (e : CalEntry) : CalEntry := { e with last := e.shown, sentCount := e.countSent }

/-- Entries end WITHDRAWN, leader first (R118, R119). -/
def endWithdrawn (slots : List Nat) (s : State) : State :=
  slots.foldl (fun s slot => endEntry slot .withdrawn (s.setEntry slot CalEntry.closeOut)) s

/-! ## The next repetition (R112 step 4, R113, R8) -/

/-- The schedule of an entry whose e is `e`: WAITING for S when it is below 0, and otherwise DUE with what is left of
its tolerance. -/
def CalEntry.placeAt (e : CalEntry) (elapsed : Int) : CalEntry :=
  if elapsed < 0 then { e with phase := some .waiting, e := 0, r := 0 }
  else { e with phase := some .due, e := elapsed.toNat, r := (e.tolerance : Int) - elapsed }

/-- An entry carried over the repetitions it misses (R113): each is recorded, S is advanced for each, and the outcomes
return to PENDING. -/
def CalEntry.overMissed (n : Nat) (e : CalEntry) : CalEntry :=
  CalEntry.fresh { (repeatFn CalEntry.miss n e) with start := (e.start + n * e.interval) % dayMs }

/-- Places an entry whose elapsed count is `elapsed` (below 0 when its S lies ahead): the repetitions whose latest
start has passed are missed (R113), and it ends, waits, or is DUE and offered (R108, R112). A follower is carried
along (R116). -/
def place (slot : Nat) (elapsed : Int) (s : State) : State :=
  match s.entryAt slot with
  | none => s
  | some e =>
    let n := missCount e.tolerance e.interval e.left elapsed
    let missed := (e.pair.foldl (fun s k => s.setEntry k (CalEntry.overMissed n)) s).raiseIf (n != 0) .missed
    if n = e.left then endByTallies e.pair missed
    else
      let later := elapsed - n * e.interval
      let placed := missed.setEntry slot (fun x => x.placeAt later)
      if later < 0 then placed else eachChan trigger (maskChans e.mask) placed

/-- An entry has come to wait for its next start: a channel of its mask in the lookahead wait compares A (R59). -/
def compareIfWaits (slot : Nat) (s : State) : State :=
  match s.entryAt slot with
  | none => s
  | some e => if e.phase = some .waiting then eachChan compareWait (maskChans e.mask) s else s

/-! ## Settling (R111, R112, R116) -/

/-- The follower of a leader entry. -/
def State.followerOf (s : State) (e : CalEntry) : Option CalEntry :=
  match e.role, e.partner with
  | .leader, some p => s.entryAt p
  | _, _ => none

/-- Both entries of a pair, or the single entry, are SENT on a channel. -/
def sentOn (e : CalEntry) (f : Option CalEntry) (c : Chan) : Bool :=
  decide (e.out.get c = .sent)
    && (match f with
        | some x => decide (x.out.get c = .sent)
        | none => true)

/-- A channel is open for the settling test (R111, R116): an outcome is ON_AIR there, or the leader is SENT, the
follower is not, and the follower mark stands. -/
def openOn (s : State) (e : CalEntry) (f : Option CalEntry) (c : Chan) : Bool :=
  decide (e.out.get c = .onAir)
    || (match f with
        | some x =>
          decide (x.out.get c = .onAir)
            || (decide (e.out.get c = .sent)
                && (decide (x.out.get c = .pending) || decide (x.out.get c = .failed))
                && decide ((s.chan c).follower = some e.slot))
        | none => false)

/-- The current repetition settles (R111, R116). -/
def State.settles (s : State) (e : CalEntry) : Bool :=
  decide (e.phase = some .due) && !e.withdrawn
    && ((maskChans e.mask).all (sentOn e (s.followerOf e))
        || (e.limitPassed && !(maskChans e.mask).any (openOn s e (s.followerOf e))))

/-- A repetition settles (R112): it is recorded on each entry of the pair, and the pair ends, or goes on to its next
repetition. -/
def settle (e : CalEntry) (s : State) : State :=
  let recorded := e.pair.foldl (fun s k => s.setEntry k CalEntry.record) s
  let unmarked := eachChan (dropMark e.slot) (maskChans e.mask) recorded
  if e.left ≤ 1 then endByTallies e.pair unmarked
  else
    let nextOne := e.pair.foldl (fun s k => s.setEntry k nextRepetition) unmarked
    compareIfWaits e.slot (place e.slot ((e.e : Int) - (e.interval : Int)) nextOne)

/-- An outcome of either entry of a pair is ON_AIR on some channel. -/
def State.pairOnAir (s : State) (slots : List Nat) : Bool :=
  slots.any (fun k =>
    match s.entryAt k with
    | some e => Chan.all.any (fun c => decide (e.out.get c = .onAir))
    | none => false)

/-- The test made after each change of an outcome (R109, R118): a withdrawn entry ends when nothing of it is on the
air, and a repetition that settles is settled. -/
def afterOutcome (slot : Nat) (s : State) : State :=
  match s.entryAt slot with
  | none => s
  | some e =>
    if e.withdrawn then (if s.pairOnAir e.pair then s else endWithdrawn e.pair s)
    else if s.settles e then settle e s
    else s

/-! ## The sequencers' reports (R109, R115) -/

/-- Sets an outcome of an entry. -/
def setOutcome (slot : Nat) (c : Chan) (o : ChanOutcome) (s : State) : State :=
  s.setEntry slot (fun e => { e with out := e.out.set c o })

/-- The pick takes the entry: ON_AIR (R109). -/
def bulletinStarted (slot : Nat) (c : Chan) (s : State) : State := setOutcome slot c .onAir s

/-- The follower of a leader may still be sent on a channel (R24: its outcome there is PENDING or FAILED). -/
def State.followerWaits (s : State) (leader : Nat) (c : Chan) : Bool :=
  match s.entryAt leader with
  | none => false
  | some e =>
    match s.followerOf e with
    | none => false
    | some f => decide (f.out.get c = .pending) || decide (f.out.get c = .failed)

/-- The entry's transmission on a channel ends SENT; a leader's sets the follower mark (R24, R109, R115). -/
def bulletinSent (slot : Nat) (c : Chan) (s : State) : State :=
  match s.entryAt slot with
  | none => s
  | some e =>
    let s1 := setOutcome slot c .sent s
    let s2 := if s1.followerWaits slot c then s1.setChan c (fun ch => { ch with follower := some slot }) else s1
    afterOutcome e.lead s2

/-- An outcome made FAILED (R109, R115), also one that a withdrawal has made NOT_USED (R118). A channel that is off the
mask has no outcome to fail, and its NOT_USED is left (DEDUCED, safe: notes/assumptions/23.md). -/
def failOutcome (c : Chan) (e : CalEntry) : CalEntry :=
  if inMask e.mask c = false ∧ e.out.get c = .notUsed then e else { e with out := e.out.set c .failed }

/-- A transmission of the entry fails on a channel, or its follower does not start there: both outcomes of a pair
become FAILED, and the leader is offered again while its limit has not passed (R108, R109, R115). In a withdrawn pair both
become FAILED too, and neither is offered again (R118). -/
def bulletinFailed (slot : Nat) (c : Chan) (s : State) : State :=
  match s.entryAt slot with
  | none => s
  | some e =>
    let s1 := e.pair.foldl (fun s k => s.setEntry k (failOutcome c)) s
    let s2 := if e.withdrawn || e.limitPassed then s1 else trigger c s1
    afterOutcome e.lead s2

/-- The follower mark is cleared with its report that the follower did not start (R24), which is disregarded for a
withdrawn pair (R118). -/
def clearMark (c : Chan) (s : State) : State :=
  match (s.chan c).follower with
  | none => s
  | some leader =>
    let s1 := s.setChan c (fun ch => { ch with follower := none })
    match s1.entryAt leader with
    | none => s1
    | some e => if e.withdrawn then s1 else bulletinFailed leader c s1

/-! ## The limit, the arrival and the clock jumps -/

/-- The outcome of a channel at the passing of a latest-start or urgent limit (R110, R132). -/
def outcomeAtLimit : ChanOutcome → ChanOutcome
  | .pending => .missed
  | .onAir => .onAir
  | .sent => .sent
  | .failed => .failed
  | .missed => .missed
  | .notUsed => .notUsed

/-- A follower's outcome at the passing (R116): MISSED with its leader, and otherwise left. -/
def followerAtLimit (leader follower : ChanOutcome) : ChanOutcome :=
  if leader = .pending ∧ follower = .pending then .missed else follower

/-- The entry at the passing of its limit (R110). -/
def CalEntry.atLimit (e : CalEntry) : CalEntry :=
  { e with out := Six.ofFn (fun c => outcomeAtLimit (e.out.get c)), limitPassed := true, passing := false }

/-- The follower at the passing of its leader's limit (R114, R116). -/
def CalEntry.withLeaderAtLimit (leader f : CalEntry) : CalEntry :=
  { f with out := Six.ofFn (fun c => followerAtLimit (leader.out.get c) (f.out.get c)), limitPassed := true }

/-- The latest-start limit of an entry passes (R110, R116): MISSED is raised if an outcome became MISSED, and the
repetition is tested for settling. -/
def limitPasses (e : CalEntry) (s : State) : State :=
  let s1 := s.setEntry e.slot CalEntry.atLimit
  let s2 :=
    match s.followerOf e with
    | some f => s1.setEntry f.slot (CalEntry.withLeaderAtLimit e)
    | none => s1
  afterOutcome e.slot (s2.raiseIf ((maskChans e.mask).any (fun c => decide (e.out.get c = .pending))) .missed)

/-- An entry becomes DUE with its full tolerance (R107, R9) and is offered (R108). -/
def becomeDue (e : CalEntry) (s : State) : State :=
  eachChan trigger (maskChans e.mask) (s.setEntry e.slot (fun x =>
    { x with phase := some .due, r := x.tolerance, e := 0, limitPassed := false, arrived := false, passing := false }))

/-- An entry that waits for its start time: WAITING, not a follower, not withdrawn. -/
def CalEntry.awaits (e : CalEntry) : Bool :=
  decide (e.phase = some .waiting) && decide (e.role ≠ .follower) && !e.withdrawn

/-- A jump of the clock is forward (R7). -/
def jumpForward (jump : Nat) : Bool := decide (jump < 43200000)

/-- A forward jump (R8): each WAITING entry whose start time was passed over becomes DUE with what is left of its
tolerance, or is caught up. The entries are taken in the calendar order as it stood before the event (R105). A channel
in the lookahead wait compares A after all of them (DESIGN CHOICE, unsafe: R14 says only "in the event";
notes/assumptions/55.md). -/
def forwardJump (old new jump : Nat) (s : State) : State :=
  (s.orderedAt old).foldl (fun s e =>
    if e.awaits && decide (1 ≤ forward old e.start) && decide (forward old e.start ≤ jump) then
      place e.slot (forward e.start new) (s.setEntry e.slot CalEntry.fresh)
    else s) s

/-- A backward jump (R9): only a WAITING entry whose start time equals the new value becomes DUE. -/
def backwardJump (old new : Nat) (s : State) : State :=
  (s.orderedAt old).foldl (fun s e => if e.awaits && decide (e.start = new) then becomeDue e s else s) s

/-! ## Withdrawal and a channel switched OFF -/

/-- An outcome that a withdrawal closes (R118): PENDING and FAILED become NOT_USED. -/
def withdrawOutcome (o : ChanOutcome) : ChanOutcome := if o = .pending ∨ o = .failed then .notUsed else o

/-- Steps 1 and 2 of R118 on one entry. -/
def CalEntry.withdraw (e : CalEntry) : CalEntry :=
  { e with withdrawn := true, out := Six.ofFn (fun c => withdrawOutcome (e.out.get c)) }

/-- The schedule of an entry's pair, or the entry itself, is WAITING. -/
def State.pairWaits (s : State) (e : CalEntry) : Bool :=
  match s.entryAt e.lead with
  | some l => decide (l.phase = some .waiting)
  | none => false

/-- Withdrawn entries end once nothing of them is on the air (R118). -/
def endUnlessOnAir (slots : List Nat) (s : State) : State := if s.pairOnAir slots then s else endWithdrawn slots s

/-- The withdrawal of an entry and its partner (R118): the follower marks naming the leader are cleared. A WAITING
entry stops bounding its channels, which is a pick trigger (R108) and a change that a channel in the lookahead wait
compares after (R59). -/
def withdrawEntry (e : CalEntry) (s : State) : State :=
  let marked := eachChan (dropMark e.lead) Chan.all (e.pair.foldl (fun s k => s.setEntry k CalEntry.withdraw) s)
  if s.pairWaits e then
    eachChan compareWait (maskChans e.mask) (endUnlessOnAir e.pair (eachChan trigger (maskChans e.mask) marked))
  else endUnlessOnAir e.pair marked

/-- One channel switched OFF leaves an entry: NOT_USED there, and out of the mask (R120). Before the first repetition
settles the last-repetition outcome of a channel outside the mask reads NOT_USED, and where that changes it the progress
changed mark is set (R121; notes/assumptions/31.md). -/
def CalEntry.loseOne (e : CalEntry) (c : Chan) : CalEntry :=
  { e with
    out := e.out.set c .notUsed
    mask := maskLess e.mask c
    last := if e.done = 0 then e.last.set c .notUsed else e.last
    changed := e.changed || (decide (e.done = 0) && decide (e.last.get c ≠ .notUsed)) }

/-- Step 1 of R120 on one entry: the channels switched OFF leave it. -/
def CalEntry.lose (offs : List Chan) (e : CalEntry) : CalEntry := offs.foldl CalEntry.loseOne e

/-- Channels switched OFF leave an entry and its follower (R120): an empty mask ends the entries CLOSED, and a DUE
entry is tested for settling. The channels of one SETUP EXIT leave together, before either test is made (DESIGN CHOICE,
unsafe: R120 speaks of one channel; notes/assumptions/46.md). -/
def entryLoses (offs : List Chan) (e : CalEntry) (s : State) : State :=
  if !offs.any (inMask e.mask) then s
  else
    let s1 := e.pair.foldl (fun s k => s.setEntry k (CalEntry.lose offs)) s
    if maskChans (e.lose offs).mask = [] then
      e.pair.foldl (fun s k => endEntry k .closed s) s1
    else afterOutcome e.slot s1

/-- R120 for every entry, in the calendar order as it stood before the event (R105). -/
def calendarLoses (offs : List Chan) (s : State) : State :=
  s.ordered.foldl (fun s e =>
    match s.entryAt e.slot with
    | some x => entryLoses offs x s
    | none => s) s

end Sys2Proof.Machine
end

