-- ==== Sys2Proof/Machine/Priority.lean ====
section
/-! DEFINITION. The Priority List (chapter 7): outcomes, finality, answers, the urgent limit, withdrawal, and channels
switched OFF. The offer of a relay to a channel stands in Machine/Pick.lean. -/

namespace Sys2Proof.Machine

/-- An outcome is final for an entry (R123). -/
def PrioEntry.finalOn (e : PrioEntry) (c : Chan) : Bool :=
  match e.out.get c with
  | .sent => true
  | .missed => true
  | .notUsed => true
  | .failed => e.distress || e.limitPassed || e.withdrawn
  | .pending => false
  | .onAir => false

/-- Every outcome is final (R129, R133). -/
def PrioEntry.allFinal (e : PrioEntry) : Bool := Chan.all.all e.finalOn

/-- Some outcome is ON_AIR. -/
def PrioEntry.onAirSome (e : PrioEntry) : Bool := Chan.all.any (fun c => decide (e.out.get c = .onAir))

/-- The result from the channels whose outcome is not NOT_USED (R129, R133). -/
def PrioEntry.result (e : PrioEntry) : Result :=
  let used := Chan.all.filter (fun c => decide (e.out.get c ≠ .notUsed))
  if used = [] then .closed
  else if used.all (fun c => decide (e.out.get c = .sent)) then .done
  else if used.any (fun c => decide (e.out.get c = .sent)) then .partly
  else .failed

/-- Steps 1 to 5 of R129: the answer, the marking walk, and the leaving. -/
def endPriority (slot : Nat) (result : Result) (s : State) : State :=
  match s.prioAt slot with
  | none => s
  | some e =>
    let s1 := answerTaken slot result (.priority e.out) true s
    let s2 := requestWalk (walkerOf e.mask) slot e.firstPage walkPages s1
    { s2 with priority := s2.priority.filter (fun x => x.slot != slot) }

/-- The test made after each change of an outcome (R129, R133, R134): a withdrawn entry ends when nothing of it is on
the air, and an entry whose outcomes are all final is answered. -/
def afterPriority (slot : Nat) (s : State) : State :=
  match s.prioAt slot with
  | none => s
  | some e =>
    if e.withdrawn then (if e.onAirSome then s else endPriority slot .withdrawn s)
    else if e.allFinal then endPriority slot e.result s
    else s

/-- Sets an outcome of an entry, and its progress changed mark (R136). -/
def setPriority (slot : Nat) (c : Chan) (o : ChanOutcome) (s : State) : State :=
  s.setPrio slot (fun e => { e with out := e.out.set c o, changed := true })

/-- The pick takes the entry: ON_AIR (R126, R131). -/
def priorityStarted (slot : Nat) (c : Chan) (s : State) : State := setPriority slot c .onAir s

/-- An outcome reported on a channel: a FAILED urgent bulletin whose limit runs is offered to it again (R131). -/
def priorityReport (slot : Nat) (c : Chan) (o : ChanOutcome) (s : State) : State :=
  match s.prioAt slot with
  | none => s
  | some e =>
    let s1 := setPriority slot c o s
    let s2 := if decide (o = .failed) && !e.distress && !e.limitPassed && !e.withdrawn then trigger c s1 else s1
    afterPriority slot s2

/-- Every relay pending on a channel becomes FAILED there, in filing order (R34, R127). -/
def failRelays (c : Chan) (s : State) : State :=
  (s.priority.filter (fun e => e.relayOn c)).foldl (fun s e => priorityReport e.slot c .failed s) s

/-- The urgent limit of an entry passes (R132). -/
def urgentPasses (e : PrioEntry) (s : State) : State :=
  let missed := Chan.all.any (fun c => decide (e.out.get c = .pending))
  let s1 := s.setPrio e.slot (fun x =>
    { x with out := Six.ofFn (fun c => outcomeAtLimit (x.out.get c)), limit := none, limitPassed := true
             passing := false, changed := x.changed || missed })
  afterPriority e.slot (s1.raiseIf missed .missed)

/-- The withdrawal of an urgent bulletin (R134): the limit stops, PENDING outcomes become NOT_USED, and it ends
WITHDRAWN once nothing of it is on the air. -/
def withdrawUrgent (slot : Nat) (s : State) : State :=
  afterPriority slot (s.setPrio slot (fun e =>
    { e with
      withdrawn := true
      limit := none
      passing := false
      out := Six.ofFn (fun c => if e.out.get c = .pending then .notUsed else e.out.get c)
      changed := e.changed || Chan.all.any (fun c => decide (e.out.get c = .pending)) }))

/-- What a channel switched OFF makes of an outcome (R135): PENDING and a FAILED that is not final become NOT_USED. -/
def PrioEntry.lose (offs : List Chan) (e : PrioEntry) : PrioEntry :=
  let gone : Chan → Bool := fun c =>
    offs.contains c
      && (decide (e.out.get c = .pending) || (decide (e.out.get c = .failed) && !e.finalOn c))
  { e with
    out := Six.ofFn (fun c => if gone c then .notUsed else e.out.get c)
    changed := e.changed || Chan.all.any gone }

/-- R135 for every entry, in filing order: the entries whose outcomes are then all final are answered. -/
def priorityLoses (offs : List Chan) (s : State) : State :=
  s.priority.foldl (fun s e => afterPriority e.slot (s.setPrio e.slot (PrioEntry.lose offs))) s

end Sys2Proof.Machine
end

