-- ==== Sys2Proof/Machine/TelexQueue.lean ====
section
/-! DEFINITION. The Telex Queue (chapter 4): the order of a channel's queue, an item's end, hand-back and progress. -/

namespace Sys2Proof.Machine

/-- A waiting ORDINARY item of a channel (R71). -/
def TelexItem.ordinaryWaiting (c : Chan) (i : TelexItem) : Bool :=
  decide (i.channel = c) && decide (i.state = .queued) && !i.priority

/-- A newly taken item placed in its channel's waiting part (R71): a PRIORITY item before the first waiting ORDINARY
item of its channel, an ORDINARY item last. -/
def enqueue (item : TelexItem) : List TelexItem → List TelexItem
  | [] => [item]
  | i :: rest =>
    if item.priority && i.ordinaryWaiting item.channel then item :: i :: rest else i :: enqueue item rest

/-- The head of a channel's queue (R71). -/
def State.head (s : State) (c : Chan) : Option TelexItem := (s.queue c).head?

/-- An item's progress fields (R77). -/
def TelexItem.progress (i : TelexItem) : Progress := .telex i.sent i.offset i.cuts i.attempts

/-- A count that holds at a limit (R77). -/
def addUpTo (limit n : Nat) : Nat := if n < limit then n + 1 else n

/-- One text code sent (R77). -/
def TelexItem.codeSent (i : TelexItem) : TelexItem := { i with sent := addUpTo 4294967295 i.sent, changed := true }

/-- A cut reported (R77). -/
def TelexItem.cut (i : TelexItem) : TelexItem := { i with cuts := addUpTo 255 i.cuts, changed := true }

/-- An attempt counted (R77). -/
def TelexItem.attempted (i : TelexItem) : TelexItem := { i with attempts := addUpTo 255 i.attempts, changed := true }

/-- The reading of a channel is of a slot. -/
def Channel.readsSlot (ch : Channel) (slot : Nat) : Bool :=
  match ch.fetch.reading with
  | some rd => rd.slot == slot
  | none => false

/-- The page a telex item's marking walk starts at (R147): that of its resume position, or its first page. It may be a
last page whose on-air marking write failed, which the walk then marks (DESIGN CHOICE, unsafe: R146 says such a page is
not marked again; notes/assumptions/66.md). -/
def walkStart (i : TelexItem) (f : Fetcher) : Nat :=
  if i.state = .queued then i.firstPage
  else
    match f.resume with
    | some p => p.page
    | none => i.firstPage

/-- A telex item ends with a result (R76): its answer with its progress, its marking walk, its leaving, and the offer of
R72 if it was the head. The reading of it and its resume position are discarded (R48, R143). -/
def endTelex (slot : Nat) (result : Result) (s : State) : State :=
  match s.telexAt slot with
  | none => s
  | some i =>
    let c := i.channel
    let wasHead := decide ((s.head c).map TelexItem.slot = some slot)
    let s1 := answerTaken slot result i.progress true s
    let s2 := requestWalk c slot (walkStart i (s.chan c).fetch) 255 s1
    let s3 : State := { s2 with telex := s2.telex.filter (fun x => x.slot != slot) }
    let s4 := s3.setChan c (fun ch =>
      let f := if ch.readsSlot slot then ch.fetch.discard else ch.fetch
      { ch with fetch := if i.state = .queued then f else { f with resume := none } })
    if wasHead && (s4.head c).isSome then trigger c s4 else s4

/-- The sequencer hands an item back INTERRUPTED at its resume offset (R74). -/
def handBack (slot : Nat) (s : State) : State := s.setTelex slot (fun i => { i with state := .interrupted })

/-- R82: every item of a channel switched OFF ends CLOSED, in queue order, and its first-line reading is discarded. -/
def closeQueue (c : Chan) (s : State) : State :=
  ((s.queue c).foldl (fun s i => endTelex i.slot .closed s) s).setChan c (fun ch => { ch with fetch := ch.fetch.discard })

end Sys2Proof.Machine
end

