-- ==== Sys2Proof/Machine/Channel.lean ====
section
/-! DEFINITION. The channel states of the Channel Sequencer (chapter 2): the carrier, entry to IDLE, HANG, HELD,
RETUNING and OFF, and an item's leaving of the channel, in order (R18) or by an abrupt cut (R19). -/

namespace Sys2Proof.Machine

/-- The carrier goes down (R16): the code in progress is abandoned, and the lead and hang timers stop. -/
def Channel.silent (ch : Channel) : Channel :=
  { ch with tx := none, rest := [], period := none, lead := none, hang := none, codeDue := false, pick := .none }

/-- The Call Unit returns to STANDBY and keeps its attempt counter (R88, R89, R91, R93): "The attempt counter has no
further use for the item until its next call phase", which begins it at 0 (R85; notes/assumptions/45.md). -/
def CallUnit.standBy (u : CallUnit) : CallUnit := { CallUnit.reset with attempts := u.attempts }

/-- The Call Unit of an item that leaves the channel: STANDBY, and the counter of an opening call still under way is
dropped (R90, R95), which reads 0. A phase that ended NO_CONTACT or WRONG_STATION keeps its count (R89, R91;
notes/assumptions/45.md). -/
def CallUnit.leave (u : CallUnit) : CallUnit :=
  if u.mode = some .opening then CallUnit.reset else u.standBy

/-- The Call Unit of a channel returns to STANDBY with its phase ended (R88, R89, R91). -/
def Channel.standBy (ch : Channel) : Channel := { ch with call := ch.call.standBy }

/-- The on-air item, its segment, its text state and its call leave the channel (R18 step 2, R66), and the Page
Fetcher's reading stays. -/
def Channel.leaveItem (ch : Channel) : Channel :=
  { ch with
    onAir := none, segment := none, lead := none, rest := [], textPosition := 0, lineFinal := false, waiting := false
    cutDecided := false, decided := none, fixed := none, call := ch.call.leave }

/-- The on-air item leaves the channel, and with it its reading (R18 step 2, R47, R66). A page access of it that is under
way goes too: a bus error that would have ended it raises no BUSERR (DESIGN CHOICE, unsafe: R148 does not speak of it;
notes/assumptions/67.md). -/
def Channel.clearItem (ch : Channel) : Channel :=
  { ch.leaveItem with fetch := { ch.fetch.discard with body := none } }

/-- The channel in a state with the carrier down. -/
def Channel.enter (state : ChState) (ch : Channel) : Channel := { ch.silent with state := state }

/-- A code begins in this event: the moment is a character boundary (R16). -/
def Channel.due (ch : Channel) : Channel := { ch with codeDue := true }

/-- The setup flag is on. -/
def State.inSetup (s : State) : Bool := s.store.setup

/-- The start of a retune (R38). `held`: the channel was HELD. -/
def enterRetuning (c : Chan) (slot : Option Nat) (preset : Nat) (held : Bool) (s : State) : State :=
  clearMark c (s.setChan c (fun ch =>
    { ch.enter .retuning with
      preset := preset, strobe := some 10, retuneLimit := some (s.store.working.retuneSeconds * 1000)
      retune := slot, pendingRetune := none, stopPending := ch.stopAtBoundary, stopAtBoundary := false
      returnHeld := held, absenceSeen := false, readyCount := 0 }))

/-- Step 5 of R34: a pending RETUNE starts with return state HELD. -/
def retuneWhenHeld (c : Chan) (s : State) : State :=
  match (s.chan c).pendingRetune with
  | some p => enterRetuning c (some p.1) p.2 true s
  | none => s

/-- Entry to HELD (R34). -/
def enterHeld (c : Chan) (s : State) : State :=
  let s1 := clearMark c (s.setChan c (fun ch => { ch.enter .held with stopAtBoundary := false }))
  let s2 := answerHeld (s1.chan c).pendingHold .done s1
  let s3 := s2.setChan c (fun ch => { ch with pendingHold := none })
  retuneWhenHeld c (failRelays c s3)

/-- Entry to IDLE, or to UNREADY while the ready view is ABSENT (R28); a pick follows on entry to IDLE (R21). -/
def enterIdle (c : Chan) (s : State) : State :=
  s.setChan c (fun ch =>
    if ch.readyView then { ch.enter .idle with pick := .now } else ch.enter .unready)

/-- The runs, the marks and the recovery count cleared, and the quiet period stopped (R151: a channel enters OFF). -/
def LineSection.stopChecks (l : LineSection) : LineSection :=
  { l with alarm := ⟨none, 0⟩, ready := ⟨none, 0⟩, alarmDeclared := false, readyDeclared := false, recovery := 0
           quiet := none }

/-- Entry to OFF (R27, R151). -/
def enterOff (c : Chan) (s : State) : State :=
  clearMark c (s.setChan c (fun ch =>
    { ch.enter .off with stopAtBoundary := false, offWaits := false, line := ch.line.stopChecks }))

/-- A channel whose item has left it becomes free (R18 steps 4 and 5, R26): HANG with its timer started afresh unless a
HOLD is pending, and a pick at once; a channel that awaits its boundary to go OFF makes none (R27). A stop-key edge that
waits does not act at this moment, even where it comes between code ends: the pick is made, and the edge cuts what it
takes at the next boundary (DESIGN CHOICE, unsafe: step 5 of R18 calls this moment a character boundary too;
notes/assumptions/62.md). On a channel that awaits its boundary to go OFF a hang time of 0 does not end the hang in this
event: it stays in HANG until its HANG_EXPIRY or that boundary, whichever comes first (DESIGN CHOICE, unsafe: R12 and R26
would expire the timer at once, R27 waits for the boundary; notes/assumptions/81.md). -/
def Channel.free (ch : Channel) : Channel :=
  { ch with
    state := .hang, hang := if ch.pendingHold.isSome then none else some ch.item.hang
    pick := if ch.offWaits then .none else .now
    codeDue := true }

/-- The item leaves the channel, which becomes free (R18 steps 2, 4 and 5). -/
def becomeFree (c : Chan) (s : State) : State := s.setChan c (fun ch => ch.clearItem.free)

/-- The item of a call leaves the channel without a cut, which becomes free (R90): its first-line reading stays, since
R47 discards one by an end or a cut, and the pick that follows finds it settled. -/
def becomeFreeUncut (c : Chan) (s : State) : State := s.setChan c (fun ch => ch.leaveItem.free)

/-! ## Items leaving in order (R18) -/

/-- The telex item on a channel, by its slot. -/
def State.telexOn (s : State) (c : Chan) : Option TelexItem :=
  match (s.chan c).onAir with
  | some a => if a.kind = .telex then s.telexAt a.slot else none
  | none => none

/-- The telex item on a channel ends with a result, and the channel becomes free. -/
def endOnAir (c : Chan) (result : Result) (s : State) : State :=
  match (s.chan c).onAir with
  | some a => becomeFree c (endTelex a.slot result s)
  | none => s

/-- The telex item on a channel is handed back INTERRUPTED, and the channel becomes free. Its reading goes with it, also
the first-line reading of an item that a HOLD hands back from KEYING or CALLING (R33), so that the pick after the RELEASE
reads that line again (DESIGN CHOICE, unsafe: R47 and R144 discard a reading at a cut, R48 names two other events, R74
and R77 name the HOLD beside the cuts; notes/assumptions/77.md). -/
def handBackFree (c : Chan) (s : State) : State :=
  match (s.chan c).onAir with
  | some a => becomeFree c (handBack a.slot s)
  | none => s

/-- The telex item on a channel is handed back INTERRUPTED by a check of R90, which is no cut, and the channel becomes
free. -/
def handBackUncut (c : Chan) (s : State) : State :=
  match (s.chan c).onAir with
  | some a => becomeFreeUncut c (handBack a.slot s)
  | none => s

/-- The owner of a bulletin, urgent bulletin or relay is told how its transmission ended. -/
def reportBody (c : Chan) (a : OnAir) (o : ChanOutcome) (s : State) : State :=
  match a.kind with
  | .bulletin => if o = .sent then bulletinSent a.slot c s else bulletinFailed a.slot c s
  | .urgent => priorityReport a.slot c o s
  | .distress => priorityReport a.slot c o s
  | .telex => s

/-! ## Abrupt cuts (R19) -/

/-- The end that a telex item carries at an abrupt cut, if it is ENDING or its end is decided (R19, R74, R75, R81;
notes/assumptions/18.md). -/
def endAtCut (item : TelexItem) (ch : Channel) : Option Result :=
  if item.state = .ending then some .withdrawn
  else
    match ch.fixed with
    | some (.ends r) => some r
    | _ => ch.decided

/-- A telex item cut abruptly: what it becomes (R19). -/
def cutTelex (item : TelexItem) (ch : Channel) (s : State) : State :=
  let s1 := s.setTelex item.slot TelexItem.cut
  match endAtCut item ch with
  | some r => endTelex item.slot r s1
  | none =>
    if decide (ch.state = .closing) || decide (ch.segment = some .signoff) then
      endTelex item.slot (if item.callCode = [] then .done else .unconfirmed) s1
    else handBack item.slot s1

/-- The on-air item is cut abruptly and handed back as R19 lays down; `gone` is the outcome of a relay. The channel's
next state is the caller's to give. -/
def abruptCut (c : Chan) (gone : ChanOutcome) (s : State) : State :=
  let ch := s.chan c
  match ch.onAir with
  | none => s
  | some a =>
    let s1 :=
      match a.kind with
      | .telex =>
        match s.telexAt a.slot with
        | some item => cutTelex item ch s
        | none => s
      | .bulletin => bulletinFailed a.slot c s
      | .urgent => priorityReport a.slot c .failed s
      | .distress => priorityReport a.slot c gone s
    s1.setChan c Channel.clearItem

/-- The stop key cuts what is on the channel and the channel enters HELD (R32). -/
def stopCuts (c : Chan) (s : State) : State := enterHeld c (abruptCut c .failed s)

/-- The boundary of a channel switched OFF (R27): the relay's outcome is NOT_USED, and the channel enters OFF,
LOCKED_OUT if its fault count is 3, or IDLE if it has been switched ON again meanwhile (notes/assumptions/26.md). Recovery
pending, set while the relay was sent at reduced power, is left as it is, until the next onset or a reset clears it
(DESIGN CHOICE, unsafe: R27 does not speak of it; notes/assumptions/83.md). -/
def offBoundary (c : Chan) (s : State) : State :=
  let s1 := abruptCut c .notUsed s
  if (s1.chan c).line.faults = 3 then
    clearMark c (s1.setChan c (fun ch => { ch.enter .lockedOut with stopAtBoundary := false, offWaits := false }))
  else if (s1.store.working.chan.get c).enabled then
    enterIdle c (s1.setChan c (fun ch => { ch with offWaits := false, stopAtBoundary := false, readyView := true }))
  else enterOff c s1

/-- The hang timer expires (R24, R26, R32): the follower mark is cleared with its report, and the channel enters IDLE,
HELD if a stop-key edge waits, or OFF if it has been switched OFF (R27). -/
def hangExpires (c : Chan) (s : State) : State :=
  if (s.chan c).offWaits then offBoundary c s
  else if (s.chan c).stopAtBoundary then enterHeld c s else clearMark c (enterIdle c s)

end Sys2Proof.Machine
end

