-- ==== Sys2Proof/Machine/Transmit.lean ====
section
/-! DEFINITION. What goes on the air: the segments and lines of a telex item (chapter 3), the call and the closing check
(chapter 5), the codes of a bulletin, urgent bulletin or relay (R140), and the next code of TXD (R16). -/

namespace Sys2Proof.Machine

/-! ## The telex reading on the air -/

/-- A reading has ended: settled, or unreadable. -/
def ReadCondition.ended : ReadCondition → Bool
  | .inProgress => false
  | .blocked => false
  | .settled _ => true
  | .settledNone => true
  | .unreadable _ => true

/-- The decided end of an on-air item whose reading is `rd` (R47, R142): one already decided stands (R148). -/
def decidedBy (rd : Reading) (old : Option Result) : Option Result :=
  match rd.condition with
  | .unreadable r => old.or (some r)
  | _ => old

/-- The reading of a channel replaced. A BLOCKED reading starts the reread timer with 100 ms (R144); in the lookahead
wait it starts the starvation timer unless it runs, and a reading that has ended stops it (R145). -/
def Channel.setReading (img : Image) (rd : Reading) (ch : Channel) : Channel :=
  let blocked := decide (rd.condition = .blocked)
  { ch with
    fetch :=
      { ch.fetch with
        reading := some rd
        reread := if blocked then some 100 else none
        starvation :=
          if rd.condition.ended then none
          else if ch.waiting && blocked then ch.fetch.starvation.or (some (img.starvationSeconds * 1000))
          else ch.fetch.starvation } }

/-- The reading of an on-air item replaced, with the decided end it may bring. -/
def Channel.setLookahead (img : Image) (rd : Reading) (ch : Channel) : Channel :=
  { ch.setReading img rd with decided := decidedBy rd ch.decided }

/-! ## The ends of a telex item -/

/-- The closing check begins (R93). -/
def beginClosing (c : Chan) (s : State) : State :=
  s.setChan c (fun ch =>
    { ch with
      state := .closing, segment := none, rest := [ch.item.request], codeDue := true
      call := { ch.call with condition := .transmit, mode := some .closing, window := [], timer := none } })

/-- The signoff ends (R62). -/
def signoffEnd (c : Chan) (s : State) : State :=
  match s.telexOn c with
  | none => s
  | some item =>
    if item.state = .ending then endOnAir c .withdrawn s
    else
      match (s.chan c).decided with
      | some r => endOnAir c r s
      | none =>
        if item.callCode = [] then endOnAir c .done s
        else if fits (closingNeed s.store.working (s.chan c).item) (s.available c) then beginClosing c s
        else endOnAir c .unconfirmed s

/-- The signoff begins; one of length 0 ends at once (R61). -/
def beginSignoff (c : Chan) (s : State) : State :=
  let s1 := s.setChan c (fun ch =>
    { ch with segment := some .signoff, rest := ch.item.signoff, waiting := false, codeDue := true })
  if (s.chan c).item.signoff = [] then signoffEnd c s1 else s1

/-- The resume offset is set to the text position and reported (R46), and the pages it has passed are marked (R146). -/
def reportOffset (bus : Bus) (c : Chan) (s : State) : State :=
  match s.telexOn c with
  | none => s
  | some item =>
    let offset := (s.chan c).textPosition
    markPassed bus c offset (s.setTelex item.slot (fun i => { i with offset := offset, changed := true }))

/-- The end of the final line (R61). -/
def finalLineEnd (bus : Bus) (c : Chan) (s : State) : State := beginSignoff c (reportOffset bus c s)

/-! ## Lines -/

/-- The settled line begins, and with it the lookahead of the line after it (R47, R54); an empty first line is at its
end at once (R48). -/
def beginLine (bus : Bus) (c : Chan) (rd : Reading) (final : Bool) (s : State) : State :=
  let s1 := s.setChan c (fun ch =>
    let started : Channel :=
      { ch with segment := some .text, rest := rd.line, lineFinal := final, waiting := false, codeDue := true }
    if final then { started with fetch := { started.fetch with reading := none, reread := none, starvation := none } }
    else started.setLookahead s.store.working (rd.nextLine ch.item.lineEnd))
  if rd.line = [] then finalLineEnd bus c s1 else s1

/-- The first line of a transmission begins; no further test is made (R51, R63). -/
def beginFirstLine (bus : Bus) (c : Chan) (s : State) : State :=
  match (s.chan c).fetch.reading with
  | some rd =>
    match rd.condition with
    | .settled final => beginLine bus c rd final s
    | _ => s
  | none => s

/-- A resume notice is sent before the text: the item was INTERRUPTED, and the notice is not empty (R23, R63). -/
def Channel.noticeFirst (resumed : Bool) (ch : Channel) : Bool := resumed && decide (ch.item.resume ≠ [])

/-- The channel enters SENDING for a telex item, at its resume offset, with segment RESUME_NOTICE or TEXT (R23, R88). -/
def enterText (c : Chan) (resumed : Bool) (s : State) : State :=
  s.setChan c (fun ch =>
    { ch with
      state := .sending, codeDue := true
      segment := some (if ch.noticeFirst resumed then .resumeNotice else .text)
      rest := if ch.noticeFirst resumed then ch.item.resume else []
      textPosition := match s.telexOn c with
        | some item => item.offset
        | none => 0 })

/-- The text of a telex item begins: the resume notice where one is sent first, and otherwise its first line (R23,
R63). -/
def beginText (bus : Bus) (c : Chan) (resumed : Bool) (s : State) : State :=
  if (s.chan c).noticeFirst resumed then enterText c resumed s else beginFirstLine bus c (enterText c resumed s)

/-! ## Cuts at break points -/

/-- The cut notice ends: the item leaves with the result fixed at the cut (R55). -/
def cutNoticeEnd (c : Chan) (s : State) : State :=
  match (s.chan c).fixed with
  | some (.ends r) => endOnAir c r s
  | some .interrupted => handBackFree c s
  | none => handBackFree c s

/-- The result fixed at a cut (R55). -/
def fixedAt (item : TelexItem) (ch : Channel) : Fixed :=
  if item.state = .ending then .ends .withdrawn
  else
    match ch.decided with
    | some r => .ends r
    | none => .interrupted

/-- A cut at a break point (R55); a cut notice of length 0 ends at once. -/
def cutAtBreak (c : Chan) (s : State) : State :=
  match s.telexOn c with
  | none => s
  | some item =>
    let s1 := (s.setTelex item.slot TelexItem.cut).setChan c (fun ch =>
      { ch with
        fetch := ch.fetch.discard, segment := some .cutNotice, fixed := some (fixedAt item ch), rest := ch.item.cut
        waiting := false, cutDecided := false, codeDue := true })
    if (s.chan c).item.cut = [] then cutNoticeEnd c s1 else s1

/-- The continuation test of R54 on a settled line: it begins, or the item is cut. -/
def continueOrCut (bus : Bus) (c : Chan) (rd : Reading) (final : Bool) (s : State) : State :=
  if fits (continueNeed (s.chan c).item rd.line.length final) (s.available c) then beginLine bus c rd final s
  else cutAtBreak c s

/-- The lookahead wait begins, or the item is cut at once (R58). -/
def enterWait (c : Chan) (blocked : Bool) (s : State) : State :=
  if s.atThreshold c then cutAtBreak c s
  else
    s.setChan c (fun ch =>
      { ch with
        waiting := true, codeDue := true
        fetch :=
          { ch.fetch with
            starvation := if blocked then some (s.store.working.starvationSeconds * 1000) else none } })

/-- The item on a channel is to be cut before its next line is judged: it is ENDING, has a decided end, or meets a
preemption source (R52 step 2). -/
def State.mustCut (s : State) (c : Chan) : Bool :=
  (match s.telexOn c with
   | some item => decide (item.state = .ending)
   | none => false)
    || (s.chan c).decided.isSome || s.preempted c

/-- Steps 2 to 4 of R52. A lookahead settled with no line is the end of the final line (R60). -/
def afterLine (bus : Bus) (c : Chan) (s : State) : State :=
  if s.mustCut c then cutAtBreak c s
  else
    match (s.chan c).fetch.reading with
    | none => cutAtBreak c s
    | some rd =>
      match rd.condition with
      | .settled final => continueOrCut bus c rd final s
      | .settledNone => finalLineEnd bus c s
      | .inProgress => enterWait c false s
      | .blocked => enterWait c true s
      | .unreadable _ => cutAtBreak c s

/-- A character boundary in the lookahead wait (R59, R60). A lookahead settled with no line ends the final line, and an
end decided with it, by the marking write of R146, is carried out at the end of the signoff (R61;
notes/assumptions/20.md). So is the end of an item made ENDING by a WITHDRAW in the wait: it sends the signoff and no cut
notice where the lookahead has settled with no line before the same boundary (DESIGN CHOICE, unsafe: R60 and R81 do not
order the two; notes/assumptions/70.md). A source that comes and leaves again before the boundary is not there at it,
and the wait goes on (DESIGN CHOICE, unsafe: R60 speaks of its arrival; notes/assumptions/44.md). -/
def waitBoundary (bus : Bus) (c : Chan) (s : State) : State :=
  let ch := s.chan c
  if ch.cutDecided then cutAtBreak c s
  else
    let settledNone : Bool :=
      match ch.fetch.reading with
      | some rd => decide (rd.condition = .settledNone)
      | none => false
    if settledNone then finalLineEnd bus c s
    else if s.mustCut c then cutAtBreak c s
    else
      match ch.fetch.reading with
      | some rd =>
        match rd.condition with
        | .settled final => continueOrCut bus c rd final s
        | _ => s
      | none => s

/-! ## The call -/

/-- An attempt begins (R86). -/
def beginAttempt (c : Chan) (item : TelexItem) (s : State) : State :=
  s.setChan c (fun ch =>
    { ch with
      rest := item.callCode ++ [ch.item.request], codeDue := true
      call := { ch.call with condition := .transmit, window := [], timer := none } })

/-- A call phase begins (R85). -/
def beginCall (c : Chan) (item : TelexItem) (resumed : Bool) (s : State) : State :=
  beginAttempt c item (s.setChan c (fun ch =>
    { ch with
      state := .calling
      call := { CallUnit.reset with mode := some .opening, resumed := some resumed } }))

/-- The request code ends: the answerback timer is started and the unit listens (R86, R93). -/
def Channel.listen (img : Image) (ch : Channel) : Channel :=
  { ch with call := { ch.call with condition := .listen, timer := some img.answerbackMs } }

/-! ## Bulletins, urgent bulletins and relays -/

/-- The reading of a transmission begins at its first page (R140). -/
def BodyReading.start (page : Nat) : BodyReading := { pages := [], request := some page, walked := 0, failed := false }

/-- The page whose code is next: a page on the air whose codes have all been sent gives way to the page after it. -/
def dropSent : List PageCopy → List PageCopy
  | p :: q :: rest => if p.rest = [] then q :: rest else p :: q :: rest
  | l => l

/-- The next code of a transmission (R140), none while the page that holds it has not been read. At the first code of
a page the reading of the page after it starts, unless the next field is END. -/
def BodyReading.take (b : BodyReading) : Option (Byte × BodyReading) :=
  match dropSent b.pages with
  | [] => none
  | p :: later =>
    match p.rest with
    | [] => none
    | code :: rest =>
      some (code,
        { b with
          pages := { p with rest := rest } :: later
          request := if p.rest.length = p.count ∧ !isEnd p.next then some p.next else b.request })

/-- The last counted code of the chain has been sent (R140). -/
def BodyReading.complete (b : BodyReading) : Bool :=
  match b.pages with
  | [p] => decide (p.rest = []) && isEnd p.next
  | _ => false

/-! ## The next code -/

/-- A code begins on TXD, and the character period timer with it (R16). -/
def Channel.put (kind : TxKind) (code : Byte) (ch : Channel) : Channel :=
  { ch with tx := some { kind := kind, code := code }, period := some ch.item.period }

/-- The first code left of the string being sent begins; with none left, the idle code. -/
def Channel.putRest (kind : TxKind) (ch : Channel) : Channel :=
  match ch.rest with
  | code :: rest => { ch.put kind code with rest := rest }
  | [] => ch.put .idle ch.item.idle

/-- The next code of a transmission begins, or the idle code in its place (R140 Underrun). -/
def Channel.putBody (ch : Channel) : Channel :=
  match ch.fetch.body with
  | none => ch.put .idle ch.item.idle
  | some b =>
    match b.take with
    | some (code, b1) => { ch.put .body code with fetch := { ch.fetch with body := some b1 } }
    | none => ch.put .idle ch.item.idle

/-- The code that begins at this boundary (R16). -/
def Channel.putNext (ch : Channel) : Channel :=
  match ch.state with
  | .keying => ch.put .idle ch.item.idle
  | .hang => ch.put .idle ch.item.idle
  | .calling => ch.putRest .call
  | .closing => ch.putRest .call
  | .sending =>
    match ch.segment with
    | some .text => if ch.waiting then ch.put .idle ch.item.idle else ch.putRest .text
    | some _ => ch.putRest .notice
    | none => ch.putBody
  | .faulted => if ch.lead.isSome then ch.put .idle ch.item.idle else ch.putBody
  | _ => ch

/-- Where a code is due, it begins; with the carrier down no code does (R16). -/
def Channel.flush (ch : Channel) : Channel :=
  if ch.codeDue then
    let ch1 : Channel := { ch with codeDue := false }
    if ch1.key then ch1.putNext else { ch1 with tx := none, period := none }
  else ch

end Sys2Proof.Machine
end

