-- ==== Sys2Proof/Machine/Pick.lean ====
section
/-! DEFINITION. The pick (R21 to R23), the offer of relays (R20, R126), relays at reduced power (R30), and the end of an
event, at which the picks it has asked for are made and the codes due begin. -/

namespace Sys2Proof.Machine

/-! ## Taking an item (R23) -/

/-- The picked item begins: at a pick in HANG, or at the expiry of the key-up lead (R23, R25). -/
def beginItem (bus : Bus) (c : Chan) (s : State) : State :=
  match (s.chan c).onAir with
  | none => s
  | some a =>
    let s1 := s.setChan c (fun ch => { ch with lead := none, codeDue := true })
    match a.kind with
    | .telex =>
      match s.telexAt a.slot with
      | none => s1
      | some item =>
        if item.callCode = [] then beginText bus c a.resumed s1 else beginCall c item a.resumed s1
    | .bulletin => s1.setChan c (fun ch => { ch with state := .sending, segment := none })
    | .urgent => s1.setChan c (fun ch => { ch with state := .sending, segment := none })
    | .distress => s1.setChan c (fun ch => { ch with state := .sending, segment := none })

/-- Steps 3 and 4 of R23: a pick in HANG begins the item at once, with no lead; a pick in IDLE raises the carrier and
starts the lead, which with U = 0 expires in the same event (R25). -/
def keyUp (bus : Bus) (c : Chan) (s : State) : State :=
  if (s.chan c).state = .hang then beginItem bus c (s.setChan c (fun ch => { ch with hang := none }))
  else
    let s1 := s.setChan c (fun ch => { ch with state := .keying, lead := some ch.item.lead, codeDue := true })
    if (s1.chan c).item.lead = 0 then beginItem bus c s1 else s1

/-- Step 1 of R23 and the first half of step 2: the item settings are latched, and the item is on the air. -/
def putOn (c : Chan) (a : OnAir) (s : State) : State :=
  s.setChan c (fun ch => { ch with item := ItemSettings.ofImage s.store.working c, onAir := some a, pick := .none })

/-- The Page Fetcher leaves any first-line reading (R48) and begins to read a transmission (R140). -/
def readBody (c : Chan) (page : Nat) (s : State) : State :=
  s.setChan c (fun ch => { ch with fetch := { ch.fetch.discard with body := some (BodyReading.start page) } })

/-- A calendar entry is put on the air of a channel, its outcome ON_AIR (R23, R109). -/
def putBulletin (c : Chan) (e : CalEntry) (s : State) : State :=
  bulletinStarted e.slot c
    (readBody c e.firstPage (putOn c { kind := .bulletin, slot := e.slot, repetition := e.done + 1, resumed := false } s))

/-- An urgent bulletin or relay is put on the air of a channel, its outcome ON_AIR (R23, R126, R131). -/
def putPriority (c : Chan) (e : PrioEntry) (s : State) : State :=
  priorityStarted e.slot c
    (readBody c e.firstPage
      (putOn c { kind := if e.distress then .distress else .urgent, slot := e.slot, repetition := 0, resumed := false } s))

/-- A telex item is lent to a channel (R73): CALLING with a call code, ON_AIR without. -/
def putTelex (c : Chan) (item : TelexItem) (s : State) : State :=
  (putOn c { kind := .telex, slot := item.slot, repetition := 0, resumed := decide (item.state = .interrupted) } s).setTelex
    item.slot (fun i => { i with state := if item.callCode = [] then .onAir else .calling })

/-! ## The pick (R22) -/

/-- A pick starts the first-line reading of the head, and takes nothing (R48). A reading that needs no page is settled
as it starts, which is a pick trigger of its own. -/
def startHead (c : Chan) (rd : Reading) (s : State) : State :=
  let s1 := s.setChan c (fun ch =>
    { ch with fetch := { (Channel.setReading s.store.working rd ch).fetch with chain := [] } })
  if rd.condition.ended then trigger c s1 else s1

/-- Items 6 and 7 of R22: the head of the queue, once its first line is settled, if it passes the start test; a pick
that finds its reading not made starts it (R48). -/
def pickHead (bus : Bus) (c : Chan) (s : State) : State :=
  match s.head c with
  | none => s
  | some item =>
    let ch := s.chan c
    let start := startHead c (firstReading s.store.working item ch.fetch.resume) s
    match ch.fetch.reading with
    | none => start
    | some rd =>
      if rd.slot ≠ item.slot then start
      else
        match rd.condition with
        | .settled final =>
          let need := startNeed s.store.working c (decide (ch.state = .hang)) item (decide (item.state = .interrupted))
            rd.line.length final
          if fits need (s.available c) then keyUp bus c (putTelex c item s) else s
        | _ => s

/-- Items 4 to 7 of R22. -/
def pickTraffic (bus : Bus) (c : Chan) (s : State) : State :=
  match s.waitingUrgent c with
  | some e => keyUp bus c (putPriority c e s)
  | none =>
    match s.dueEntry c with
    | some e => keyUp bus c (putBulletin c e s)
    | none => pickHead bus c s

/-- The entry that the follower mark of a channel calls for (R24). -/
def State.markedFollower (s : State) (c : Chan) : Option CalEntry :=
  match (s.chan c).follower with
  | none => none
  | some leader =>
    match s.entryAt leader with
    | none => none
    | some e => s.followerOf e

/-- Item 3 of R22: the follower, by which the mark is cleared (R24). -/
def pickFollower (bus : Bus) (c : Chan) (e : CalEntry) (s : State) : State :=
  keyUp bus c (putBulletin c e (s.setChan c (fun ch => { ch with follower := none })))

/-- What a pick takes when no relay is pending (R22). With a HOLD pending only the follower stands before HELD
(R34); in setup mode nothing else is considered. -/
def pickRest (bus : Bus) (c : Chan) (s : State) : State :=
  if s.inSetup then (if (s.chan c).pendingHold.isSome then enterHeld c s else s)
  else
    match (s.chan c).pendingHold, (s.chan c).pendingRetune, s.markedFollower c with
    | some _, _, some e => pickFollower bus c e s
    | some _, _, none => enterHeld c s
    | none, some p, _ => enterRetuning c (some p.1) p.2 false s
    | none, none, some e => pickFollower bus c e s
    | none, none, none => pickTraffic bus c s

/-- A pick in IDLE or HANG (R22). -/
def pickItem (bus : Bus) (c : Chan) (s : State) : State :=
  match s.pendingRelay c with
  | some e => keyUp bus c (putPriority c e s)
  | none => pickRest bus c s

/-- A pick in HANG that has found nothing, with a hang time of 0: the hang timer expires in the same event (R26). -/
def hangOut (c : Chan) (s : State) : State :=
  if (s.chan c).state = .hang ∧ (s.chan c).item.hang = 0 then hangExpires c s else s

/-! ## Relays at reduced power (R30) -/

/-- The reduced-power condition of a channel: distress-on-fault REDUCED, and last fault kind ALARM (R30). -/
def State.reducedOk (s : State) (c : Chan) : Bool :=
  (s.store.working.chan.get c).reduced && decide ((s.chan c).line.lastKind = .alarm)

/-- The earliest relay pending on a FAULTED channel is taken at reduced power, with the lead (R30). -/
def takeReduced (c : Chan) (s : State) : State :=
  match s.pendingRelay c with
  | none => s
  | some e =>
    (putPriority c e s).setChan c (fun ch =>
      { ch with lead := if ch.item.lead = 0 then none else some ch.item.lead, codeDue := true })

/-- A FAULTED channel judges the relays pending on it (R126, R127): by the reduced-power condition they stay PENDING
and the earliest is taken if none is on air, and without it they are FAILED. -/
def judgeReduced (c : Chan) (s : State) : State :=
  if s.reducedOk c then (if (s.chan c).onAir.isSome || (s.chan c).offWaits then s else takeReduced c s)
  else failRelays c s

/-- A reduced relay has ended (R30): the next follows directly; with none, the carrier goes down, and the channel
enters IDLE if a recovery is pending. On a channel that awaits its boundary to go OFF (R27) the relays pending stay
pending, as at any other moment of that wait: they are for what the channel becomes at that boundary (DEDUCED, unsafe:
notes/assumptions/26.md). -/
def reducedEnd (c : Chan) (s : State) : State :=
  match (if (s.chan c).offWaits then none else s.pendingRelay c) with
  | some e => (putPriority c e s).setChan c (fun ch => { ch with lead := none, codeDue := true })
  | none =>
    let s1 := s.setChan c Channel.silent
    if (s1.chan c).recoveryPending then enterIdle c (s1.setChan c (fun ch => { ch with recoveryPending := false }))
    else s1

/-- The transmission of a bulletin, urgent bulletin or relay ends in order (R18, R140, R141): the owner is told, and
the channel becomes free, or stays FAULTED (R30). -/
def endBody (c : Chan) (o : ChanOutcome) (s : State) : State :=
  match (s.chan c).onAir with
  | none => s
  | some a =>
    let s1 := reportBody c a o s
    if (s1.chan c).state = .faulted then reducedEnd c (s1.setChan c Channel.clearItem) else becomeFree c s1

/-! ## The page reads of a transmission (R140, R141) -/

/-- A page read of a transmission passes the checks of R140: at most 64 pages, WRITTEN, its count and next in range. -/
def bodyPageOk (b : BodyReading) (h : PageHeader) : Bool :=
  decide (b.walked < walkPages) && h.written && h.countOk && (isPage h.next || isEnd h.next)

/-- A failed page read of a transmission (R141): found in KEYING, it ends the transmission in this event
(notes/assumptions/41.md). -/
def bodyFails (c : Chan) (b : BodyReading) (s : State) : State :=
  let b1 : BodyReading := { b with request := none, failed := true }
  let s1 := s.setChan c (fun ch => { ch with fetch := { ch.fetch with body := some b1 } })
  if (s.chan c).state = .keying then endBody c .failed s1 else s1

/-- A page read of a transmission joins the pages held (R140). -/
def BodyReading.addPage (b : BodyReading) (page : Nat) (h : PageHeader) (text : List Byte) : BodyReading :=
  { b with
    pages := b.pages ++
      [{ num := page, walked := b.walked + 1, start := 0, count := h.count, next := h.next, rest := text }]
    request := none
    walked := b.walked + 1 }

/-- A page access for a transmission completes (R140, R148). At a 65th page the pages walked fail the check of R139
step 3 alone and no access is made, so that a bus error there raises no BUSERR (DESIGN CHOICE, unsafe: R140 does not
order the two; notes/assumptions/71.md). -/
def bodyPageReads (bus : Bus) (c : Chan) (s : State) : State :=
  match (s.chan c).fetch.body with
  | none => s
  | some b =>
    match b.request with
    | none => s
    | some page =>
      let h := s.pageHeader page
      if decide (b.walked < walkPages) && busFails bus (.page page) then bodyFails c b (s.raise .busErr)
      else if bodyPageOk b h then
        let b1 := b.addPage page h (s.pageText page h.count)
        s.setChan c (fun ch => { ch with fetch := { ch.fetch with body := some b1 } })
      else bodyFails c b s

/-! ## Offers -/

/-- A relay takes a channel with no lead (R20): the item it displaces has been cut. -/
def relayTakes (c : Chan) (s : State) : State :=
  match s.pendingRelay c with
  | none => s
  | some e => (putPriority c e s).setChan c (fun ch => { ch with state := .sending, segment := none, codeDue := true })

/-- A relay replaces the item picked in KEYING, and the running lead continues (R20). -/
def relayReplaces (c : Chan) (s : State) : State :=
  match s.pendingRelay c with
  | none => s
  | some e =>
    let lead := (s.chan c).lead
    (putPriority c e (abruptCut c .failed s)).setChan c (fun ch => { ch with lead := lead, codeDue := true })

/-- The offer of a relay to a channel (R20, R126). -/
def offerRelay (slot : Nat) (c : Chan) (s : State) : State :=
  match (s.chan c).state with
  | .idle => trigger c s
  | .hang => trigger c s
  | .held => priorityReport slot c .failed s
  | .lockedOut => priorityReport slot c .failed s
  | .faulted =>
    if s.reducedOk c then judgeReduced c s else priorityReport slot c .failed s
  | .off => s
  | .unready => s
  | .keying => s
  | .calling => s
  | .sending => s
  | .closing => s
  | .retuning => s

/-! ## The end of an event -/

/-- The channels at which a pick is to be made in this event. -/
def State.picking (s : State) : List Chan := Chan.all.filter (fun c => decide ((s.chan c).pick = .now))

/-- One pick asked for is made; in a state other than IDLE and HANG it leaves nothing behind (R21). -/
def makePick (bus : Bus) (c : Chan) (s : State) : State :=
  let s1 := s.setChan c (fun ch => { ch with pick := .none })
  match (s1.chan c).state with
  | .idle => pickItem bus c s1
  | .hang => hangOut c (pickItem bus c s1)
  | _ => s1

/-- The picks asked for are made, the lowest channel first, until none is left. -/
def runPicks (bus : Bus) : Nat → State → State
  | 0, s => s
  | n + 1, s =>
    match s.picking with
    | [] => s
    | c :: _ => runPicks bus n (makePick bus c s)

/-- The picks one event may make. -/
def pickLimit : Nat := 512

/-- The picks of an event, and the page accesses for transmissions that complete within it (R140): a page found
faulty may free its channel and so bring a further pick (R141). -/
def settlePicks (bus : Bus) (s : State) : State :=
  runPicks bus pickLimit (eachChan (bodyPageReads bus) bus.prompt (runPicks bus pickLimit s))

/-- The end of an event: the picks it asked for, and then the codes that begin in it (notes/assumptions/8.md). -/
def settleEvent (bus : Bus) (s : State) : State :=
  eachChan (fun c s => s.setChan c Channel.flush) Chan.all (settlePicks bus s)

end Sys2Proof.Machine
end

