-- ==== Sys2Proof/Machine/Boundary.lean ====
section
/-! DEFINITION. The commands of one channel's own timers and lines: the character boundary (R16), the key-up lead
(R25), the hang (R26), the answerback timer and RXD (chapter 5), and the page reads (chapter 8). -/

namespace Sys2Proof.Machine

/-! ## The character boundary -/

/-- What waits to cut a channel at its next character boundary (R19): a SETUP EXIT that switched it OFF (R27), a
stop-key edge (R32), or a distress relay (R20). -/
inductive Cause
  | off | stop | relay
deriving DecidableEq, Repr

/-- The item on air can be displaced by a relay: it is no relay itself (R20). -/
def Channel.displaceable (ch : Channel) : Bool :=
  match ch.onAir with
  | some a => decide (a.kind ≠ .distress)
  | none => false

/-- The cause that a character boundary finds on a channel, if any; the first in the order OFF, stop key, relay
(notes/assumptions/9.md). -/
def State.cause (s : State) (c : Chan) : Option Cause :=
  let ch := s.chan c
  if ch.offWaits then some .off
  else if ch.stopAtBoundary then some .stop
  else if ch.displaceable && (s.pendingRelay c).isSome then some .relay
  else none

/-- The cause acts at the boundary: the channel goes OFF, or enters HELD, or the relay takes it. In KEYING the relay
replaces the picked item and the lead runs on (R20). -/
def actCause (c : Chan) (cause : Cause) (s : State) : State :=
  match cause with
  | .off => offBoundary c s
  | .stop => stopCuts c s
  | .relay => if (s.chan c).state = .keying then relayReplaces c s else relayTakes c (abruptCut c .failed s)

/-- A cause that waits acts at a character boundary; the first in the order of `State.cause`. -/
def actWaiting (c : Chan) (s : State) : State :=
  match s.cause c with
  | some cause => actCause c cause s
  | none => s

/-- The code that has just ended was a text code: it is reported (R64), and the text position moves past it. -/
def textCodeEnded (c : Chan) (s : State) : State :=
  match s.telexOn c with
  | none => s
  | some item =>
    (s.setTelex item.slot TelexItem.codeSent).setChan c (fun ch => { ch with textPosition := ch.textPosition + 1 })

/-- A boundary in the text of a telex item: the end of a final line, a break point, or a code within a line. A cause
that waits takes the place of what follows a break point (R20, R52; notes/assumptions/9.md). In the lookahead wait it
takes the place of whatever has settled there, with a line or with none: the break point stands, and the item is cut
abruptly at it (DESIGN CHOICE, unsafe: R60 does not order the two; notes/assumptions/56.md). At the end of the final
line the signoff begins before the cause acts (notes/assumptions/9.md). -/
def textBoundary (bus : Bus) (c : Chan) (s : State) : State :=
  let ch := s.chan c
  if ch.waiting then (if (s.cause c).isSome then s else waitBoundary bus c s)
  else
    let counted := if (ch.tx.map Tx.kind) = some .text then textCodeEnded c s else s
    if ch.rest ≠ [] then counted
    else if ch.lineFinal then finalLineEnd bus c counted
    else
      let reported := reportOffset bus c counted
      if (reported.cause c).isSome then reported else afterLine bus c reported

/-- A boundary in a telex item in SENDING. At the end of the resume notice a cause that waits takes the place of the first
line, also of an empty final one, whose signoff is not begun: the item is INTERRUPTED (DESIGN CHOICE, unsafe: R63 and
R19 do not order the two; notes/assumptions/75.md). -/
def telexBoundary (bus : Bus) (c : Chan) (s : State) : State :=
  let ch := s.chan c
  match ch.segment with
  | some .text => textBoundary bus c s
  | some .resumeNotice => if ch.rest = [] ∧ (s.cause c).isNone then beginFirstLine bus c s else s
  | some .cutNotice => if ch.rest = [] then cutNoticeEnd c s else s
  | some .signoff => if ch.rest = [] then signoffEnd c s else s
  | none => s

/-- A boundary in the transmission of a bulletin, urgent bulletin or relay: its end (R140), or the end that a failed
page read brings (R141). Either comes before a cause that waits for the same boundary: a relay whose page read has
failed is FAILED though its channel awaits the boundary to go OFF, which would make it NOT_USED (R27, R128; DESIGN
CHOICE, unsafe: notes/assumptions/59.md). -/
def bodyBoundary (c : Chan) (s : State) : State :=
  let ch := s.chan c
  match ch.fetch.body with
  | none => s
  | some b =>
    if b.complete && decide ((ch.tx.map Tx.kind) = some .body) then endBody c .sent s
    else if b.failed then endBody c .failed s
    else s

/-- A boundary in CALLING or CLOSING: with the request code ended, the unit listens (R86, R93). -/
def callBoundary (c : Chan) (s : State) : State :=
  let ch := s.chan c
  if ch.call.condition = .transmit ∧ ch.rest = [] then s.setChan c (Channel.listen s.store.working) else s

/-- What the code that has ended brings about of itself, by the channel's state. -/
def ownBoundary (bus : Bus) (c : Chan) (s : State) : State :=
  let ch := s.chan c
  match ch.state with
  | .calling => callBoundary c s
  | .closing => callBoundary c s
  | .sending => if ch.segment.isSome then telexBoundary bus c s else bodyBoundary c s
  | .faulted => bodyBoundary c s
  | .hang => s.setChan c (fun ch => { ch with pick := if ch.pick = .atBoundary then .now else ch.pick })
  | _ => s

/-- A character boundary: a code ends and the next code, idle code or decision follows (R16). -/
def characterBoundary (bus : Bus) (c : Chan) (s : State) : State :=
  if !expired (s.chan c).period then s
  else
    actWaiting c (ownBoundary bus c (s.setChan c (fun ch => { ch with period := none, codeDue := true })))

/-- The meaning of CHARACTER_BOUNDARY (R16). -/
def execCharacterBoundary (c : Chan) (bus : Bus) (s : State) : Host.Outcome State Fault Refusal :=
  .next (powered (fun s => settleEvent bus (characterBoundary bus c (s.hostStores bus))) s)

/-! ## The lead and the hang -/

/-- The key-up lead expires (R25): a relay pending replaces the picked item (R20), and the item begins; a relay at
reduced power begins (R30; notes/assumptions/40.md). So does a relay whose channel a SETUP EXIT has switched OFF in its
lead: it is cut at the boundary that ends its first code (R27; DESIGN CHOICE, unsafe: notes/assumptions/53.md). -/
def leadExpires (bus : Bus) (c : Chan) (s : State) : State :=
  let ch := s.chan c
  if !expired ch.lead then s
  else if ch.state = .keying then
    beginItem bus c (if ch.displaceable && (s.pendingRelay c).isSome then relayReplaces c s else s)
  else s.setChan c (fun ch => { ch with lead := none, codeDue := true })

/-- The meaning of KEY_UP_LEAD_EXPIRY (R25). -/
def execKeyUpLeadExpiry (c : Chan) (bus : Bus) (s : State) : Host.Outcome State Fault Refusal :=
  .next (powered (fun s => settleEvent bus (leadExpires bus c (s.hostStores bus))) s)

/-- The meaning of HANG_EXPIRY (R26). -/
def execHangExpiry (c : Chan) (bus : Bus) (s : State) : Host.Outcome State Fault Refusal :=
  .next (powered (fun s =>
    let s0 := s.hostStores bus
    if expired (s0.chan c).hang then settleEvent bus (hangExpires c s0) else s0) s)

/-! ## The answerback (chapter 5) -/

/-- One attempt is counted, in the Call Unit and in the item (R88, R89, R91). -/
def countAttempt (c : Chan) (slot : Nat) (s : State) : State :=
  (s.setTelex slot TelexItem.attempted).setChan c (fun ch =>
    { ch with call := { ch.call with attempts := ch.call.attempts + 1, timer := none } })

/-- The length of the first line and whether it is final, as the reading settled it (R48, R90). -/
def Channel.firstLine (ch : Channel) : Nat × Bool :=
  match ch.fetch.reading with
  | some rd => (rd.line.length, decide (rd.condition = .settled true))
  | none => (0, false)

/-- The checks before a further attempt (R90): preemption, and the start test with U = 0. An item that fails one goes
back to its queue without a cut. The moment is a character boundary (R89): a relay or a stop-key edge that waits for one
abandons the attempt then begun, uncounted, in the same event (R95; DESIGN CHOICE, unsafe: notes/assumptions/58.md). -/
def furtherAttempt (c : Chan) (item : TelexItem) (s : State) : State :=
  let ch := s.chan c
  let need := startNeed s.store.working c true item (decide (ch.call.resumed = some true)) ch.firstLine.1 ch.firstLine.2
  if s.trafficSource c then handBackUncut c s
  else if fits need (s.available c) then actWaiting c (beginAttempt c item s)
  else handBackUncut c s

/-- The answerback timer of an opening call expires (R89): at the call attempts setting the item ends NO_CONTACT and the
channel is free, where a relay that waits is taken by the pick and a stop-key edge takes HANG to HELD (R95;
notes/assumptions/62.md); below it the checks of R90 are made. -/
def answerbackExpires (c : Chan) (s : State) : State :=
  let ch := s.chan c
  if decide (ch.call.mode = some .opening) && decide (ch.call.condition = .listen) && expired ch.call.timer then
    match s.telexOn c with
    | none => s
    | some item =>
      let counted := countAttempt c item.slot s
      if s.store.working.callAttempts ≤ ch.call.attempts + 1 then
        endOnAir c .noContact (counted.setChan c Channel.standBy)
      else furtherAttempt c item counted
  else s

/-- The meaning of ANSWERBACK_TIMEOUT (R89). -/
def execAnswerbackTimeout (c : Chan) (bus : Bus) (s : State) : Host.Outcome State Fault Refusal :=
  .next (powered (fun s => settleEvent bus (answerbackExpires c (s.hostStores bus))) s)

/-- The answerback timer of a closing check expires (R94). -/
def closingExpires (c : Chan) (s : State) : State :=
  let ch := s.chan c
  if decide (ch.call.mode = some .closing) && decide (ch.call.condition = .listen) && expired ch.call.timer then
    endOnAir c .unconfirmed s
  else s

/-- The meaning of CLOSING_CHECK_TIMEOUT (R94). -/
def execClosingCheckTimeout (c : Chan) (bus : Bus) (s : State) : Host.Outcome State Fault Refusal :=
  .next (powered (fun s => settleEvent bus (closingExpires c (s.hostStores bus))) s)

/-- The newest codes of the window are the expected answerback (R87). -/
def answerbackMatches (window answer : List Byte) : Bool :=
  decide (answer.length ≤ window.length) && decide (window.drop (window.length - answer.length) = answer)

/-- The window is full (R87). -/
def windowFull : Nat := 24

/-- A match (R88, R94): the attempt is counted, and the counter keeps its value (notes/assumptions/45.md). The moment is
a character boundary, and the item begins in SENDING at it: a relay or a stop-key edge that waits for a boundary acts in
the same event (DESIGN CHOICE, unsafe: R95 may also mean the end of the code then begun; notes/assumptions/58.md). It
finds segment RESUME_NOTICE or TEXT, and the item INTERRUPTED at its resume offset (R95), whatever its first line holds:
the signoff of an empty final first line is not begun (DEDUCED, unsafe: notes/assumptions/64.md). -/
def matched (bus : Bus) (c : Chan) (item : TelexItem) (s : State) : State :=
  let ch := s.chan c
  if ch.call.mode = some .closing then endOnAir c .done s
  else
    let resumed := decide (ch.call.resumed = some true)
    let counted := (countAttempt c item.slot s).setTelex item.slot (fun i => { i with state := .onAir })
    let answered := counted.setChan c Channel.standBy
    if (answered.cause c).isSome then actWaiting c (enterText c resumed answered) else beginText bus c resumed answered

/-- A full window without a match (R91, R94). -/
def fullWindow (c : Chan) (item : TelexItem) (s : State) : State :=
  if (s.chan c).call.mode = some .closing then endOnAir c .unconfirmed s
  else endOnAir c .wrongStation ((countAttempt c item.slot s).setChan c Channel.standBy)

/-- A code arrives complete on RXD (R87): discarded unless the unit listens; else appended and match-tested. -/
def rxdArrives (bus : Bus) (c : Chan) (code : Byte) (s : State) : State :=
  if (s.chan c).call.condition ≠ .listen then s
  else
    match s.telexOn c with
    | none => s
    | some item =>
      let window := (s.chan c).call.window ++ [code]
      let kept := s.setChan c (fun ch => { ch with call := { ch.call with window := window } })
      if answerbackMatches window item.answerback then matched bus c item kept
      else if windowFull ≤ window.length then fullWindow c item kept
      else kept

/-- The meaning of RXD_CODE_ARRIVAL (R87). -/
def execRxdCodeArrival (c : Chan) (code : Byte) (bus : Bus) (s : State) : Host.Outcome State Fault Refusal :=
  .next (powered (fun s => settleEvent bus (rxdArrives bus c code (s.hostStores bus))) s)

/-! ## Page reads -/

/-- A lookahead read of an on-air item has been taken: the pages its offset has passed are marked (R146), and with them a
page whose next field the first-line reading found known while the item was off the air (DESIGN CHOICE, unsafe:
notes/assumptions/47.md). -/
def lookaheadRead (bus : Bus) (c : Chan) (rd : Reading) (s : State) : State :=
  let s1 := s.setChan c (Channel.setLookahead s.store.working rd)
  match s1.telexOn c with
  | some item => markPassed bus c item.offset s1
  | none => s1

/-- A first-line reading of a head item not on the air (R48): settled, it is a pick trigger; unreadable, the item ends
with that result. It marks no page (notes/assumptions/47.md). -/
def headRead (c : Chan) (rd : Reading) (s : State) : State :=
  let s1 := s.setChan c (Channel.setReading s.store.working rd)
  match rd.condition with
  | .settled _ => trigger c s1
  | .unreadable r => endTelex rd.slot r s1
  | .settledNone => s1
  | .inProgress => s1
  | .blocked => s1

/-- The reading of a channel has moved on. -/
def readingMoves (bus : Bus) (c : Chan) (rd : Reading) (s : State) : State :=
  if (s.telexOn c).isSome then lookaheadRead bus c rd s else headRead c rd s

/-- A page joins the chain of pages read and not yet marked (R146). -/
def Channel.addPage (p : ChainPage) (ch : Channel) : Channel :=
  { ch with fetch := { ch.fetch with chain := ch.fetch.chain ++ [p] } }

/-- The next field of the page held, as a reread found it (R144), goes to the passage of that page in the chain: the
one by which `walked` pages have been walked. An earlier passage of a page read twice keeps the next field it found
(R142, R143). -/
def Channel.renewPage (walked next : Nat) (ch : Channel) : Channel :=
  { ch with fetch := { ch.fetch with
      chain := ch.fetch.chain.map (fun p => if p.walked = walked then { p with next := next } else p) } }

/-- A page access for a telex reading completes (R142): a page is read and checked. At a 256th page no access is made, so
that a bus error there raises no BUSERR (DESIGN CHOICE, unsafe: notes/assumptions/57.md). -/
def telexPage (bus : Bus) (c : Chan) (rd : Reading) (page walked start skip : Nat) (s : State) : State :=
  let failed := busFails bus (.page page)
  let h := s.pageHeader page
  let tooMany := decide (255 < walked + 1)
  let good := !tooMany && !failed && h.written && h.countOk
  let s1 := s.raiseIf (failed && !tooMany) .busErr
  let s2 :=
    if good then
      s1.setChan c (Channel.addPage { num := page, walked := walked + 1, start := start, count := h.count, next := h.next })
    else s1
  readingMoves bus c (rd.pageRead page walked start skip failed h (s.pageText page h.count)) s2

/-- A reread of the MORE page completes (R144). -/
def telexReread (bus : Bus) (c : Chan) (rd : Reading) (s : State) : State :=
  match rd.copy with
  | none => s
  | some cp =>
    let failed := busFails bus (.page cp.num)
    let next := (s.pageHeader cp.num).next
    let s1 := s.raiseIf failed .busErr
    let s2 := if failed then s1 else s1.setChan c (Channel.renewPage cp.walked next)
    readingMoves bus c (rd.reread failed next) s2

/-- The page access under way for a telex reading completes. -/
def telexPageReads (bus : Bus) (c : Chan) (s : State) : State :=
  match (s.chan c).fetch.reading with
  | none => s
  | some rd =>
    match rd.request with
    | none => s
    | some (.read page walked start skip) => telexPage bus c rd page walked start skip s
    | some .reread => telexReread bus c rd s

/-- The meaning of TELEX_PAGE_READ (R142). -/
def execTelexPageRead (c : Chan) (bus : Bus) (s : State) : Host.Outcome State Fault Refusal :=
  .next (powered (fun s => settleEvent bus (telexPageReads bus c (s.hostStores bus))) s)

/-- The meaning of BULLETIN_PAGE_READ (R140). -/
def execBulletinPageRead (c : Chan) (bus : Bus) (s : State) : Host.Outcome State Fault Refusal :=
  .next (powered (fun s => settleEvent bus (bodyPageReads bus c (s.hostStores bus))) s)

/-- The front marking walk of a channel's Page Fetcher runs to its stop (R147). -/
def walkRuns (bus : Bus) (c : Chan) (s : State) : State :=
  match (s.chan c).fetch.walks with
  | [] => s
  | w :: rest =>
    (walkStopped w.slot (markingWalk bus w.limit w.page s)).setChan c (fun ch =>
      { ch with fetch := { ch.fetch with walks := rest } })

/-- The meaning of MARKING_WALK_END (R147): the walk is made whole in this step (notes/assumptions/10.md). -/
def execMarkingWalkEnd (c : Chan) (bus : Bus) (s : State) : Host.Outcome State Fault Refusal :=
  .next (powered (fun s => walkRuns bus c (s.hostStores bus)) s)

/-! ## The other timers of a channel -/

/-- The meaning of TUNE_STROBE_EXPIRY (R38): the strobe is negated. -/
def execTuneStrobeExpiry (c : Chan) (s : State) : Host.Outcome State Fault Refusal :=
  .next (powered (fun s =>
    s.setChan c (fun ch => { ch with strobe := if expired ch.strobe then none else ch.strobe })) s)

/-- The meaning of PAGE_REREAD_TIMER_EXPIRY (R144): the Page Fetcher reads the header of the MORE page again. -/
def execPageRereadTimerExpiry (c : Chan) (s : State) : Host.Outcome State Fault Refusal :=
  .next (powered (fun s =>
    s.setChan c (fun ch =>
      if expired ch.fetch.reread then
        { ch with fetch := { ch.fetch with
            reread := none
            reading := ch.fetch.reading.map (fun rd => { rd with request := some .reread }) } }
      else ch)) s)

/-- The starvation timer expires (R145): the decided end STARVED; the lookahead and its rereads stop. A decided end that
stands already, of a marking write that failed in the wait, is kept (DESIGN CHOICE, unsafe: R148 says so of later bus
errors only; notes/assumptions/48.md). -/
def Channel.starve (ch : Channel) : Channel :=
  if ch.waiting && expired ch.fetch.starvation then
    { ch with decided := ch.decided.or (some .starved), fetch := ch.fetch.discard }
  else ch

/-- The meaning of STARVATION_EXPIRY (R145). -/
def execStarvationExpiry (c : Chan) (s : State) : Host.Outcome State Fault Refusal :=
  .next (powered (fun s => s.setChan c Channel.starve) s)

/-- The meaning of LOOKAHEAD_WAIT_THRESHOLD (R59): a channel in the wait compares A with its threshold. -/
def execLookaheadWaitThreshold (c : Chan) (s : State) : Host.Outcome State Fault Refusal :=
  .next (powered (compareWait c) s)

end Sys2Proof.Machine
end

