-- ==== Sys2Proof/Machine/Lines.lean ====
section
/-! DEFINITION. The Line Supervisor (chapter 9) and the transmitter's condition as the sequencer takes it (section 2.5):
line checks, onsets, recovery, lockout, the quiet period, the retune watch and the stop key. -/

namespace Sys2Proof.Machine

/-! ## Faults (R29 to R31, R155) -/

/-- The relay on air goes on at reduced power at an onset (R30): the onset is of kind ALARM, and the channel either
carries a reduced relay already or meets the condition. -/
def State.keepsRelay (s : State) (c : Chan) (kind : FaultKind) : Bool :=
  let ch := s.chan c
  decide (kind = .alarm) && !ch.offWaits && (ch.onAir.map OnAir.kind == some .distress)
    && (decide (ch.state = .faulted) || s.reducedOk c)

/-- Step 3 of R29: a retune in progress ends. -/
def endRetune (c : Chan) (result : Result) (s : State) : State :=
  (answerHeld (s.chan c).retune result s).setChan c (fun ch =>
    { ch with retune := none, retuneLimit := none, stopPending := false })

/-- A fault onset at the sequencer (R29, R30). -/
def enterFaulted (c : Chan) (kind : FaultKind) (s : State) : State :=
  let ch := s.chan c
  if ch.state = .off ∨ ch.state = .lockedOut then s
  else if s.keepsRelay c kind then
    clearMark c (s.setChan c (fun ch => { ch with state := .faulted, segment := none, stopAtBoundary := false }))
  else
    let cut := endRetune c .failed (abruptCut c (if ch.offWaits then .notUsed else .failed) s)
    judgeReduced c (clearMark c (cut.setChan c (fun ch => { ch.enter .faulted with stopAtBoundary := false })))

/-- A lockout report (R31, R157). Its FAILED answers come in the order pending RETUNE, pending HOLD, relays pending on
the channel (DESIGN CHOICE, unsafe: R31, R127 and R157 give none; notes/assumptions/65.md). -/
def lockOut (c : Chan) (s : State) : State :=
  let s1 := (abruptCut c (if (s.chan c).offWaits then .notUsed else .failed) s).raise .lockout
  let s2 := answerHeld ((s1.chan c).pendingRetune.map Prod.fst) .failed s1
  let s3 := answerHeld (s2.chan c).pendingHold .failed s2
  failRelays c (clearMark c (s3.setChan c (fun ch =>
    { ch.enter .lockedOut with
      pendingRetune := none, pendingHold := none, stopAtBoundary := false, offWaits := false })))

/-- A channel that was to go OFF at its next boundary goes OFF at an onset (R27), unless it is LOCKED_OUT by it. One that
has been switched ON again meanwhile stays FAULTED and judges the relays pending on it, as any FAULTED channel does
(R30, R127; DESIGN CHOICE, unsafe: notes/assumptions/52.md). -/
def offAtOnset (c : Chan) (s : State) : State :=
  if (s.chan c).offWaits then
    (if (s.store.working.chan.get c).enabled then judgeReduced c (s.setChan c (fun ch => { ch with offWaits := false }))
     else enterOff c s)
  else s

/-- The state is none of FAULTED, LOCKED_OUT and OFF (R155 step 4). -/
def ChState.serving (x : ChState) : Bool := decide (x ≠ .faulted) && decide (x ≠ .lockedOut) && decide (x ≠ .off)

/-- Steps 1 and 2 of R155. -/
def Channel.noteOnset (kind : FaultKind) (ch : Channel) : Channel :=
  { ch with
    recoveryPending := false
    line := { ch.line with lastKind := kind, recovery := 0, recoveryReported := false } }

/-- Steps 5 and 6 of R155. -/
def LineSection.countOnset (quietMs : Nat) (l : LineSection) : LineSection :=
  { l with faults := if l.quiet.isNone ∧ l.faults < 3 then l.faults + 1 else l.faults, quiet := some quietMs }

/-- An onset (R155). FAULT is raised by step 4 alone: an onset after a CLEARFAULT that finds the channel still FAULTED,
with a reduced relay on the air, raises none (DEDUCED, unsafe: the last sentence of R158 has such an onset raise it;
notes/assumptions/61.md). -/
def onset (c : Chan) (kind : FaultKind) (s : State) : State :=
  let before := s.chan c
  let reported := enterFaulted c kind (s.setChan c (Channel.noteOnset kind))
  let raised := reported.raiseIf before.state.serving .fault
  let counted := raised.setChan c (fun ch =>
    { ch with line := ch.line.countOnset (s.store.working.quietSeconds * 1000) })
  if before.line.faults < 3 ∧ (counted.chan c).line.faults = 3 then lockOut c counted else offAtOnset c counted

/-- A recovery at the sequencer (R30, R31). -/
def recover (c : Chan) (s : State) : State :=
  let ch := s.chan c
  if ch.state ≠ .faulted then s
  else if ch.onAir.isSome then s.setChan c (fun ch => { ch with recoveryPending := true })
  else enterIdle c s

/-- A FAULTED channel is ready to recover (R156). The recovery delay is the working image's at this moment: at the expiry
of a quiet period that follows a SETUP EXIT and comes before the next check, it is the new one (DESIGN CHOICE, unsafe:
R150 keeps no copy and yet has a changed delay act from the next check; notes/assumptions/79.md). -/
def State.recovers (s : State) (c : Chan) : Bool :=
  let ch := s.chan c
  decide (ch.state = .faulted) && decide (s.store.working.recoveryDelay ≤ ch.line.recovery) && ch.line.quiet.isNone
    && !ch.line.recoveryReported

/-- The recovery of R156, if it is due. -/
def recoverIfDue (c : Chan) (s : State) : State :=
  if s.recovers c then
    recover c (s.setChan c (fun ch => { ch with line := { ch.line with recoveryReported := true } }))
  else s

/-! ## The stop key (R32, R161) -/

/-- A stop-key edge (R32, R161): STOPKEY is raised in every state. -/
def stopEdge (c : Chan) (s : State) : State :=
  let s1 := s.raise .stopKey
  let wait := s1.setChan c (fun ch => if ch.offWaits then ch else { ch with stopAtBoundary := true })
  match (s1.chan c).state with
  | .idle => enterHeld c s1
  | .unready => enterHeld c s1
  | .keying => wait
  | .calling => wait
  | .sending => wait
  | .closing => wait
  | .hang => wait
  | .retuning => s1.setChan c (fun ch => { ch with stopPending := true })
  | .held => s1
  | .off => s1
  | .faulted => s1
  | .lockedOut => s1

/-! ## Line checks (R151) -/

/-- A count that holds at 65,535, as R150 says of the counts of the two runs. -/
def countCheck (n : Nat) : Nat := if n < 65535 then n + 1 else n

/-- A run with one more sample (R151). -/
def Run.sample (level : Bool) (r : Run) : Run :=
  if r.level = some level then { r with count := countCheck r.count } else { level := some level, count := 1 }

/-- The section with the samples of READY and ALARM taken (R151). The recovery count holds at 65,535 like the counts of the
two runs (DESIGN CHOICE, unsafe: R150 does not say whether it stops or wraps; notes/assumptions/78.md). -/
def LineSection.sample (ready alarm : Bool) (l : LineSection) : LineSection :=
  { l with
    alarm := l.alarm.sample alarm
    ready := l.ready.sample ready
    alarmDeclared := l.alarmDeclared && decide (l.alarm.level = some alarm)
    readyDeclared := l.readyDeclared && decide (l.ready.level = some ready)
    recovery := if alarm then 0 else countCheck l.recovery }

/-- An ALARM onset is due (R152). -/
def LineSection.alarmDue (delay : Nat) (l : LineSection) : Bool :=
  decide (l.alarm.level = some true) && decide (delay ≤ l.alarm.count) && !l.alarmDeclared

/-- A READY run of a level is long enough to be declared, and has not been (R153, R154). -/
def LineSection.readyDue (level : Bool) (delay : Nat) (l : LineSection) : Bool :=
  decide (l.ready.level = some level) && decide (delay ≤ l.ready.count) && !l.readyDeclared

/-- The onset a check declares, with the marks it sets (R151, R152, R153). -/
def checkOnset (c : Chan) (s : State) : State :=
  let ch := s.chan c
  let delay := s.store.working.alarmDelay
  let alarm := ch.line.alarmDue delay
  let notReady := ch.key && ch.line.readyDue false delay
  let marked := s.setChan c (fun ch =>
    { ch with line := { ch.line with
        alarmDeclared := ch.line.alarmDeclared || alarm, readyDeclared := ch.line.readyDeclared || notReady } })
  if alarm then onset c .alarm marked else if notReady then onset c .notReady marked else s

/-- A READY report at the sequencer (R28). -/
def readyReport (c : Chan) (present : Bool) (s : State) : State :=
  let s1 := s.setChan c (fun ch => { ch with readyView := present })
  match (s1.chan c).state with
  | .idle => if present then s1 else s1.setChan c (Channel.enter .unready)
  | .unready => if present then enterIdle c s1 else s1
  | _ => s1

/-- The READY report a check makes with the carrier down (R154). -/
def checkReady (c : Chan) (s : State) : State :=
  let ch := s.chan c
  let delay := s.store.working.alarmDelay
  if ch.key ∨ ch.state = .off ∨ ch.state = .retuning then s
  else
    let mark := s.setChan c (fun ch => { ch with line := { ch.line with readyDeclared := true } })
    if ch.line.readyDue false delay then readyReport c false mark
    else if ch.line.readyDue true delay then readyReport c true mark
    else s

/-- A retune succeeds (R39). Stop pending, the return state and the retune watch go back to no, IDLE, absence not seen and
count 0 (DESIGN CHOICE, unsafe: R39 lists no clearing of them; notes/assumptions/82.md). -/
def retuneSucceeds (c : Chan) (s : State) : State :=
  let ch := s.chan c
  let s1 := (answerHeld ch.retune .done s).setChan c (fun ch =>
    { ch with retune := none, retuneLimit := none, readyView := true, stopPending := false, returnHeld := false
              absenceSeen := false, readyCount := 0 })
  if ch.returnHeld || ch.stopPending || ch.pendingHold.isSome then enterHeld c s1 else enterIdle c s1

/-- The retune's own watch of READY, one check (R39). -/
def watchRetune (c : Chan) (ready : Bool) (s : State) : State :=
  let ch := s.chan c
  let delay := s.store.working.alarmDelay
  let count := if ready = ch.absenceSeen then ch.readyCount + 1 else 0
  if ch.state ≠ .retuning then s
  else if count < delay then s.setChan c (fun ch => { ch with readyCount := count })
  else if ch.absenceSeen then retuneSucceeds c s
  else s.setChan c (fun ch => { ch with absenceSeen := true, readyCount := 0 })

/-- A change to a level is an edge under a stop edge setting (R160). -/
def StopEdge.finds (edge : StopEdge) (level : Bool) : Bool :=
  match edge with
  | .rising => level
  | .falling => !level
  | .both => true

/-- The AUX sample of a check changes the accepted level (R160). -/
def LineSection.auxChanges (level : Bool) (l : LineSection) : Bool :=
  decide (l.auxLast = some level) && decide (l.auxLevel = some (!level))

/-- The section with the AUX sample taken (R160). -/
def LineSection.sampleAux (level : Bool) (l : LineSection) : LineSection :=
  { l with auxLast := some level, auxLevel := if l.auxLevel.isNone ∨ l.auxChanges level then some level else l.auxLevel }

/-- The AUX sample of a check, on a channel designated STOP_KEY (R160). -/
def checkAux (c : Chan) (aux : Bool) (s : State) : State :=
  let k := s.store.working.chan.get c
  let l := (s.chan c).line
  if k.aux ≠ .stopKey then s
  else
    let s1 := s.setChan c (fun ch => { ch with line := ch.line.sampleAux aux })
    if l.auxChanges aux && k.edge.finds aux then stopEdge c s1 else s1

/-- The checks of READY and ALARM, made in every state but OFF (R151; notes/assumptions/32.md). The retune's own watch of
READY stands in the place of the READY report: an onset of the same check comes before it, and ends the retune (DESIGN
CHOICE, unsafe: the list of R151 does not name the watch; notes/assumptions/60.md). -/
def checkLevels (c : Chan) (ready alarm : Bool) (s : State) : State :=
  if (s.chan c).state = .off then s
  else
    let sampled := s.setChan c (fun ch => { ch with line := ch.line.sample ready alarm })
    let onsetTaken := checkOnset c sampled
    let readyTaken :=
      if (onsetTaken.chan c).state = .retuning then watchRetune c ready onsetTaken else checkReady c onsetTaken
    recoverIfDue c readyTaken

/-- A line check (R151): its timer is restarted with 10 ms, and the findings are taken in order. The picks that the
findings of READY and ALARM ask for are made before the stop key is looked at (R21, R28, R31). -/
def lineChecks (bus : Bus) (c : Chan) (ready alarm aux : Bool) (s : State) : State :=
  if !expired (s.chan c).line.check then s
  else
    checkAux c aux (runPicks bus pickLimit (checkLevels c ready alarm
      (s.setChan c (fun ch => { ch with line := { ch.line with check := some 10 } }))))

/-- The meaning of LINE_CHECK (R151). -/
def execLineCheck (c : Chan) (ready alarm aux : Bool) (bus : Bus) (s : State) : Host.Outcome State Fault Refusal :=
  .next (powered (fun s => settleEvent bus (lineChecks bus c ready alarm aux (s.hostStores bus))) s)

/-- The quiet period expires (R156); the recovery delay it is judged by is the working image's (notes/assumptions/79.md). -/
def quietExpires (c : Chan) (s : State) : State :=
  if expired (s.chan c).line.quiet then
    recoverIfDue c (s.setChan c (fun ch => { ch with line := { ch.line with quiet := none } }))
  else s

/-- The meaning of QUIET_PERIOD_EXPIRY (R156). -/
def execQuietPeriodExpiry (c : Chan) (bus : Bus) (s : State) : Host.Outcome State Fault Refusal :=
  .next (powered (fun s => settleEvent bus (quietExpires c (s.hostStores bus))) s)

/-- The retune limit expires before presence is seen (R40): a TUNE_FAIL onset. -/
def retuneFails (c : Chan) (s : State) : State :=
  if decide ((s.chan c).state = .retuning) && expired (s.chan c).retuneLimit then onset c .tuneFail s else s

/-- The meaning of RETUNE_LIMIT_EXPIRY (R40). -/
def execRetuneLimitExpiry (c : Chan) (s : State) : Host.Outcome State Fault Refusal :=
  .next (powered (fun s => settleEvent noBus (retuneFails c s)) s)

end Sys2Proof.Machine
end

