-- ==== Sys2Proof/Machine/Rack.lean ====
section
/-! DEFINITION. The Rack Port (chapter 10): the registers, the sweep with its posting, progress and header, the visits of
its intake pass, and the four ways a visit ends. -/

namespace Sys2Proof.Machine

/-! ## Step 1: answers (R168, R173, R174, R176) -/

/-- An answer of the abandonment pass is written (R176). -/
def abandonWrite (bus : Bus) (slot : Nat) (s : State) : State :=
  let cells := answerCells .abandoned none s.stamp.1 s.stamp.2 none .none
  match busPart bus (isAbandonWrite slot) with
  | some n => (s.storeSlot slot (partWrite n cells)).raise .busErr
  | none =>
    let s1 := (s.storeSlot slot cells).raise .answer
    { s1 with rack := { s1.rack with
        posted := (s.rack.posted + 1) % 65536, abandon := s.rack.abandon.filter (fun k => k != slot) } }

/-- One slot of the abandonment set (R176). -/
def abandonVisit (bus : Bus) (s : State) (slot : Nat) : State :=
  if busFails bus (.abandonRead slot) then s.raise .busErr
  else if s.slotState slot = 2 then abandonWrite bus slot s
  else { s with rack := { s.rack with abandon := s.rack.abandon.filter (fun k => k != slot) } }

/-- The abandonment pass (R176). -/
def abandonPass (bus : Bus) (s : State) : State := s.rack.abandon.foldl (abandonVisit bus) s

/-- A pending intake write made again (R174). -/
def takeAgain (bus : Bus) (s : State) (p : Nat × Nat) : State :=
  match busPart bus (isTakeAgain p.1) with
  | some n => (s.storeSlot p.1 (partWrite n (takeCells p.2))).raise .busErr
  | none =>
    let s1 := s.storeSlot p.1 (takeCells p.2)
    { s1 with rack := { s1.rack with pendingTakes := s.rack.pendingTakes.filter (fun q => q.1 != p.1) } }

/-- The pending intake write of a slot. -/
def State.pendingTake (s : State) (slot : Nat) : Option Nat :=
  (s.rack.pendingTakes.find? (fun q => q.1 == slot)).map Prod.snd

/-- The slot state an answer is checked against: FILED while its intake write is pending (R174). -/
def State.expectedState (s : State) (a : Answer) : Nat :=
  if (s.pendingTake a.slot).isSome then 1
  else
    match a.expected with
    | .taken => 2
    | .filed => 1

/-- The filing sequence an answer carries (R168, R174). -/
def State.answerSeq (s : State) (a : Answer) : Option Nat := a.seq.or (s.pendingTake a.slot)

/-- The slot state byte an answer finds departs from the one expected: RACKERR (R173). -/
def checkExpected (a : Answer) (s : State) : State :=
  s.raiseIf (s.slotState a.slot != s.expectedState a) .rackErr

/-- The bytes of an answer (R168). -/
def State.cellsOf (s : State) (a : Answer) : List (Nat × Byte) :=
  answerCells a.result a.reason a.time a.noclock (s.answerSeq a) a.progress

/-- An answer has been written whole (R168). -/
def answerPosted (a : Answer) (s : State) : State :=
  let s1 := s.raise .answer
  { s1 with rack := { s1.rack with
      backlog := s.rack.backlog.tail
      posted := (s.rack.posted + 1) % 65536
      pendingTakes := s.rack.pendingTakes.filter (fun q => q.1 != a.slot) } }

/-- Posting (R168): answers from the front, until one waits for its walk, a bus access fails, or none is left. -/
def postAnswers (bus : Bus) : List Answer → State → State
  | [], s => s
  | a :: rest, s =>
    if a.walk then s
    else if busFails bus (.post a.slot) then s.raise .busErr
    else
      let s1 := checkExpected a s
      match busPart bus (isAnswer a.slot) with
      | some n => (s1.storeSlot a.slot (partWrite n (s.cellsOf a))).raise .busErr
      | none => postAnswers bus rest (answerPosted a (s1.storeSlot a.slot (s.cellsOf a)))

/-! ## Step 2: progress (R169) -/

/-- The progress of a slot whose progress changed mark is set (R77, R121, R136). -/
def State.changedProgress (s : State) (slot : Nat) : Option Progress :=
  match s.telexAt slot, s.entryAt slot, s.prioAt slot with
  | some i, _, _ => if i.changed then some i.progress else none
  | none, some e, _ => if e.changed then some (.bulletin e.done e.last e.sentCount) else none
  | none, none, some e => if e.changed then some (.priority e.out) else none
  | none, none, none => none

/-- The progress changed mark of a slot is cleared. -/
def clearChanged (slot : Nat) (s : State) : State :=
  ((s.setTelex slot (fun i => { i with changed := false })).setEntry slot (fun e => { e with changed := false })).setPrio
    slot (fun e => { e with changed := false })

/-- The progress of one slot (R169, R174). -/
def progressVisit (bus : Bus) (s : State) (slot : Nat) : State :=
  match s.changedProgress slot with
  | none => s
  | some p =>
    match busPart bus (isProgress slot) with
    | some n => (s.storeSlot slot (partWrite n p.cells)).raise .busErr
    | none => clearChanged slot (s.storeSlot slot p.cells)

/-- The slots of the rack, in order. -/
def rackSlots : List Nat := List.range 128

/-- Step 2 (R169). -/
def writeProgress (bus : Bus) (s : State) : State := rackSlots.foldl (progressVisit bus) s

/-! ## Step 3: the header (R170) -/

/-- Step 3 (R170, R174); the held count of the sweep now begun starts at 0. -/
def writeHeader (bus : Bus) (s : State) : State :=
  let s1 :=
    match busPart bus isHeader with
    | some n => (s.storeAt s.rack.rackBase (partWrite n s.headerCells)).raise .busErr
    | none => s.storeAt s.rack.rackBase s.headerCells
  { s1 with rack := { s1.rack with held := 0 } }

/-! ## The start and the end of a sweep (R167) -/

/-- A sweep starts (R167): it is counted, and steps 1 to 3 are made (R168 to R170, R176; notes/assumptions/24.md). -/
def startSweep (bus : Bus) (s : State) : State :=
  let s1 : State := { s with rack := { s.rack with
    sweepTimer := none, latch := false, sweep := some 0, sweepCount := (s.rack.sweepCount + 1) % 65536 } }
  let s2 := abandonPass bus s1
  let s3 := s2.rack.pendingTakes.foldl (takeAgain bus) s2
  let s4 := postAnswers bus s3.rack.backlog s3
  writeHeader bus (writeProgress bus s4)

/-- A sweep is asked for (R165, R167): one starts, or the latch is set while one is in progress. -/
def requestSweep (bus : Bus) (s : State) : State :=
  if s.rack.sweep.isSome then { s with rack := { s.rack with latch := true } } else startSweep bus s

/-- What a visit of the intake pass comes to (R171, R173, R174, R176). -/
inductive Visit
  | passed | busError | violation | handed
deriving DecidableEq, Repr

/-- The visit of a slot. One still in the abandonment set is passed over with no access to it, so that no bus error there
raises BUSERR (DESIGN CHOICE, unsafe: R176 has step 4 pass over it, R171 has the state of each slot read, and neither says
whether it is read first; notes/assumptions/80.md). -/
def visitOf (bus : Bus) (s : State) (slot : Nat) : Visit :=
  if s.rack.abandon.contains slot then .passed
  else if busFails bus (.visit slot) then .busError
  else if s.slotState slot ≠ 1 then .passed
  else if s.rack.backlog.any (fun a => a.slot == slot && decide (a.expected = .filed)) then .passed
  else if (s.pendingTake slot).isSome then .passed
  else if s.holdsSlot slot then .violation
  else .handed

/-- The visits from a slot on, up to the first docket to be handed to its owner: the state with the flags they raise,
and that docket's slot; `n` slots are left to visit. -/
def scan (bus : Bus) : Nat → Nat → State → State × Option Nat
  | 0, _, s => (s, none)
  | n + 1, slot, s =>
    match visitOf bus s slot with
    | .passed => scan bus n (slot + 1) s
    | .busError => scan bus n (slot + 1) (s.raise .busErr)
    | .violation => scan bus n (slot + 1) (s.raise .rackErr)
    | .handed => (s, some slot)

/-- The visits that a sweep in progress has still to make. -/
def scanFrom (bus : Bus) (cursor : Nat) (s : State) : State × Option Nat := scan bus (128 - cursor) cursor s

/-- A sweep ends (R167): the next starts in the same event if the latch is set, and otherwise the timer is started if
RUN is set. -/
def endSweep (bus : Bus) (s : State) : State :=
  let s1 : State := { s with rack := { s.rack with sweep := none } }
  if s1.rack.latch && s1.rack.run then startSweep bus s1
  else if s1.rack.run then
    { s1 with rack := { s1.rack with sweepTimer := some s1.store.working.sweepInterval } }
  else s1

/-- The end of a sweep, once its last slot has been visited. -/
def sweepEnds (bus : Bus) (s : State) : State :=
  match s.rack.sweep with
  | none => s
  | some cursor =>
    match scanFrom bus cursor s with
    | (s1, none) => endSweep bus s1
    | (_, some _) => s

/-! ## Intake (R171) -/

/-- A docket is taken (R171): it is given the counter's value, which advances, and the filing sequence and then TAKEN
are written; a bus error leaves the write pending (R174). TAKEN is written also where the same event goes on to answer the
docket, and its answer then expects TAKEN (DEDUCED, unsafe: the last paragraph of R171 has a docket taken and answered at
intake left FILED; notes/assumptions/63.md). -/
def takeDocket (bus : Bus) (slot : Nat) (s : State) : State :=
  let seq := s.rack.seq
  let s1 : State := { s with rack := { s.rack with seq := nextSeq seq } }
  match busPart bus (isTake slot) with
  | some n =>
    let s2 := (s1.storeSlot slot (partWrite n (takeCells seq))).raise .busErr
    { s2 with rack := { s2.rack with pendingTakes := s2.rack.pendingTakes ++ [(slot, seq)] } }
  | none => s1.storeSlot slot (takeCells seq)

/-- The docket that the intake pass hands over next is that of a slot and of a kind: the state with the visits before
it made and the pass moved on past it. -/
def State.handedOver (s : State) (bus : Bus) (slot : Nat) (kind : Option Kind) : Option State :=
  match s.rack.sweep with
  | none => none
  | some cursor =>
    match scanFrom bus cursor s with
    | (s1, some k) =>
      if k = slot ∧ s1.slotKind k = kind then some { s1 with rack := { s1.rack with sweep := some (k + 1) } } else none
    | (_, none) => none

/-- A docket command (R171): the host's stores, the visits up to the docket, and what its owner does; nothing but the
host's stores if the docket of that slot and kind is not the next to be handed over. -/
def intake (bus : Bus) (slot : Nat) (kind : Option Kind) (owner : State → State) (s : State) : State :=
  let s0 := s.hostStores bus
  match s0.handedOver bus slot kind with
  | some s1 => settleEvent bus (owner s1)
  | none => s0

/-! ## The meanings of the register commands -/

/-- The meaning of SET_RUN (R165): RUN from clear to set closes the bases and asks for a sweep. A write that finds RUN
set leaves it, and its SWEEP bit asks for a sweep (R167). -/
def execSetRun (sweep : Bool) (bus : Bus) (s : State) : Host.Outcome State Fault Refusal :=
  .next (powered (fun s =>
    let s0 := s.hostStores bus
    if s0.rack.run then (if sweep then requestSweep bus s0 else s0)
    else requestSweep bus { s0 with rack := { s0.rack with run := true, basesOpen := false } }) s)

/-- The meaning of CLEAR_RUN (R175): the timer stops and the latch is cleared. A SWEEP bit written with it asks for
nothing (DESIGN CHOICE, unsafe: R165 and R167 do not say; notes/assumptions/50.md). -/
def execClearRun (s : State) : Host.Outcome State Fault Refusal :=
  .next (powered (fun s =>
    if s.rack.run then { s with rack := { s.rack with run := false, sweepTimer := none, latch := false } } else s) s)

/-- The meaning of SWEEP (R165, R167): ignored while RUN is clear. -/
def execSweep (bus : Bus) (s : State) : Host.Outcome State Fault Refusal :=
  .next (powered (fun s =>
    let s0 := s.hostStores bus
    if s0.rack.run then requestSweep bus s0 else s0) s)

/-- The meaning of STATUS_WRITE (R4, R166): a 1 clears an event flag; NOCLOCK, a level, is no event flag. -/
def execStatusWrite (value : Word) (s : State) : Host.Outcome State Fault Refusal :=
  .next (powered (fun s => { s with rack := { s.rack with events := s.rack.events &&& ~~~value } }) s)

/-- The bits of MASK that exist (chapter 10.2: bits not named read 0 and ignore writes). -/
def maskBits : Word := 0x3FF

/-- The meaning of MASK_WRITE (R166). -/
def execMaskWrite (value : Word) (s : State) : Host.Outcome State Fault Refusal :=
  .next (powered (fun s => { s with rack := { s.rack with mask := value &&& maskBits } }) s)

/-- The meaning of RACK_BASE_WRITE (R165). -/
def execRackBaseWrite (value : Word) (s : State) : Host.Outcome State Fault Refusal :=
  .next (powered (fun s =>
    if s.rack.basesOpen then { s with rack := { s.rack with rackBase := value } } else s) s)

/-- The meaning of PAGE_BASE_WRITE (R165). -/
def execPageBaseWrite (value : Word) (s : State) : Host.Outcome State Fault Refusal :=
  .next (powered (fun s =>
    if s.rack.basesOpen then { s with rack := { s.rack with pageBase := value } } else s) s)

/-- The meaning of SWEEP_TIMER_EXPIRY (R167). -/
def execSweepTimerExpiry (bus : Bus) (s : State) : Host.Outcome State Fault Refusal :=
  .next (powered (fun s =>
    let s0 := s.hostStores bus
    if s0.rack.run && s0.rack.sweep.isNone && expired s0.rack.sweepTimer then startSweep bus s0 else s0) s)

/-- The meaning of SWEEP_END (R167). -/
def execSweepEnd (bus : Bus) (s : State) : Host.Outcome State Fault Refusal :=
  .next (powered (fun s => sweepEnds bus (s.hostStores bus)) s)

end Sys2Proof.Machine
end

