-- ==== Sys2Proof/Machine/Intake.lean ====
section
/-! DEFINITION. The intake of TELEX, BULLETIN, URGENT, DISTRESS and WITHDRAW dockets (chapters 4, 6 and 7). -/

namespace Sys2Proof.Machine

/-- A channel is switched ON in the working image. -/
def State.enabled (s : State) (c : Chan) : Bool := (s.store.working.chan.get c).enabled

/-! ## TELEX (R67 to R72) -/

/-- The refusal reason of a TELEX docket, if a check of R68 fails. -/
def telexRefusal (s : State) (d : TelexDocket) : Option Reason :=
  match Chan.ofNumber d.channel with
  | none => some .badChannel
  | some c =>
    if !s.enabled c then some .channelOff
    else if (s.chan c).state = .lockedOut then some .channelFaulted
    else if 8 < d.callLength then some .badText
    else if d.callLength ≠ 0 ∧ ¬ (1 ≤ d.answerLength ∧ d.answerLength ≤ 20) then some .badText
    else if !isPage d.firstPage then some .badText
    else none

/-- The most items the pool holds, and the most that a channel's queue holds (R69). -/
def poolLimit : Nat := 64

/-- The most items a channel's queue holds (R69). -/
def queueLimit : Nat := 16

/-- There is room for an item of a channel (R69). -/
def State.telexRoom (s : State) (c : Chan) : Bool :=
  decide (s.telex.length < poolLimit) && decide ((s.queue c).length < queueLimit)

/-- The item of a TELEX docket (R67, R70, R77). The expected answerback is not read for a collective message. -/
def newTelex (slot : Nat) (c : Chan) (d : TelexDocket) : TelexItem :=
  { slot := slot, channel := c, priority := d.priority, state := .queued, callCode := d.call
    answerback := if d.callLength = 0 then [] else d.answer
    firstPage := d.firstPage, offset := 0, sent := 0, cuts := 0, attempts := 0, changed := true }

/-- The first-line reading of an item that is no longer the head is discarded (R48, R72). -/
def dropOldReading (c : Chan) (s : State) : State :=
  match s.head c with
  | none => s
  | some item =>
    s.setChan c (fun ch =>
      if ch.onAir.isNone ∧ !ch.readsSlot item.slot then { ch with fetch := ch.fetch.discard } else ch)

/-- A TELEX item enters its channel's queue and is offered (R71, R72). -/
def enterTelex (slot : Nat) (c : Chan) (d : TelexDocket) (s : State) : State :=
  trigger c (dropOldReading c { s with telex := enqueue (newTelex slot c d) s.telex })

/-- The intake of a TELEX docket (R68, R69). -/
def telexIntake (bus : Bus) (slot : Nat) (s : State) : State :=
  let d := s.telexDocket slot
  match telexRefusal s d, Chan.ofNumber d.channel with
  | some r, _ => refuse slot r s
  | none, some c => if s.telexRoom c then enterTelex slot c d (takeDocket bus slot s) else holdDocket s
  | none, none => refuse slot .badChannel s

/-- The meaning of TELEX (R68). -/
def execTelex (slot : Nat) (bus : Bus) (s : State) : Host.Outcome State Fault Refusal :=
  .next (powered (intake bus slot (some .telex) (telexIntake bus slot)) s)

/-! ## The chain walk at intake (R139) -/

/-- A docket whose chain is walked at intake: taken if the chain is good, refused with BAD_TEXT if not, and answered
BUS_FAULT at a bus error, which raises BUSERR (R101 step 7, R124 step 3, R148). -/
def walkThen (bus : Bus) (slot page : Nat) (take : State → State) (s : State) : State :=
  match intakeWalk bus s walkPages page [] with
  | .good => take s
  | .badText => refuse slot .badText s
  | .busFault => answerAtIntake slot .busFault none .none (s.raise .busErr)

/-! ## BULLETIN (R100 to R106, R114) -/

/-- The settings of a series number. -/
def State.seriesOf (s : State) (n : Nat) : Option Series := s.store.working.series[n]?

/-- The clamped mask (R102). -/
def bulletinMask (s : State) (d : BulletinDocket) : BitVec 8 :=
  match s.seriesOf d.series with
  | some k => d.mask &&& k.allowed &&& enabledMask s.store.working
  | none => 0

/-- The clamped tolerance in milliseconds (R102). -/
def bulletinTolerance (d : BulletinDocket) : Nat :=
  if 1 < d.repetitions ∧ d.intervalMin ≤ d.toleranceMin then (d.intervalMin - 1) * 60000 else d.toleranceMin * 60000

/-- Step 2 of R101. -/
def seriesOn (s : State) (d : BulletinDocket) : Bool :=
  match s.seriesOf d.series with
  | some k => decide (d.series ≤ 15) && k.enabled
  | none => false

/-- Step 3 of R101. -/
def timesOk (d : BulletinDocket) : Bool :=
  decide (1 ≤ d.intervalMin ∧ d.intervalMin ≤ 1440) && decide (1 ≤ d.repetitions ∧ d.repetitions ≤ 15)
    && (d.partner.isSome || (decide (d.start < dayMs) && decide (d.toleranceMin ≤ 60)))

/-- The conditions of R114 on the entry in the partner slot. -/
def pairOk (s : State) (d : BulletinDocket) : Bool :=
  match d.partner with
  | none => true
  | some p =>
    match s.entryAt p with
    | none => false
    | some e =>
      !e.withdrawn && decide (e.role = .single) && decide (e.mask = bulletinMask s d)
        && decide (e.requested = d.repetitions) && decide (e.interval = d.intervalMin * 60000) && decide (e.done = 0)
        && (maskChans e.mask).all (fun c => decide (e.out.get c = .pending))

/-- The refusal reason of a BULLETIN docket, if one of steps 1 to 5 of R101 does not pass. -/
def bulletinRefusal (s : State) (d : BulletinDocket) : Option Reason :=
  if !s.clock.isSet then some .clockNotSet
  else if !seriesOn s d then some .badSeries
  else if !timesOk d then some .badTime
  else if maskChans (bulletinMask s d) = [] then some .badChannel
  else if !pairOk s d then some .badPair
  else none

/-- The most entries the calendar holds (R103). -/
def calendarLimit : Nat := 48

/-- The entry of a BULLETIN docket before its phase is settled (R104, R106). -/
def newEntry (s : State) (slot : Nat) (d : BulletinDocket) : CalEntry :=
  let mask := bulletinMask s d
  { slot := slot, seq := s.rack.seq, series := d.series, role := .single, partner := none, mask := mask
    start := d.start, phase := none, tolerance := bulletinTolerance d, r := 0, e := 0
    interval := d.intervalMin * 60000, requested := d.repetitions, done := 0, left := d.repetitions
    out := pendingOn mask, limitPassed := false, withdrawn := false, last := pendingOn mask
    sentCount := Six.all 0, sentTally := 0, unsentTally := 0, firstPage := d.firstPage, changed := true
    arrived := false, passing := false }

/-- A follower is entered, and its leader named (R106, R114). Its start time and tolerance are ignored. -/
def enterFollower (leader : Nat) (e : CalEntry) (s : State) : State :=
  match s.entryAt leader with
  | none => s
  | some l =>
    let f : CalEntry :=
      { e with role := .follower, partner := some leader, start := 0, tolerance := 0, done := l.done, left := l.left
               limitPassed := l.limitPassed }
    let s1 := s.setEntry leader (fun x => { x with role := .leader, partner := some e.slot })
    { s1 with calendar := s1.calendar ++ [f] }

/-- A single entry is entered: DUE at once if it is at most its tolerance late, and otherwise WAITING (R106). -/
def enterSingle (e : CalEntry) (s : State) : State :=
  let late := forward e.start s.clock.value
  if late ≤ e.tolerance then
    eachChan trigger (maskChans e.mask)
      { s with calendar := s.calendar ++
          [{ e with phase := some .due, e := late, r := (e.tolerance : Int) - (late : Int) }] }
  else
    eachChan compareWait (maskChans e.mask) { s with calendar := s.calendar ++ [{ e with phase := some .waiting }] }

/-- A BULLETIN docket is entered (R106). -/
def enterBulletin (d : BulletinDocket) (e : CalEntry) (s : State) : State :=
  match d.partner with
  | some p => enterFollower p e s
  | none => enterSingle e s

/-- The intake of a BULLETIN docket (R101). -/
def bulletinIntake (bus : Bus) (slot : Nat) (s : State) : State :=
  let d := s.bulletinDocket slot
  match bulletinRefusal s d with
  | some r => refuse slot r s
  | none =>
    if calendarLimit ≤ s.calendar.length then holdDocket s
    else walkThen bus slot d.firstPage (fun s => enterBulletin d (newEntry s slot d) (takeDocket bus slot s)) s

/-- The meaning of BULLETIN (R101). -/
def execBulletin (slot : Nat) (bus : Bus) (s : State) : Host.Outcome State Fault Refusal :=
  .next (powered (intake bus slot (some .bulletin) (bulletinIntake bus slot)) s)

/-! ## URGENT and DISTRESS (R124, R125) -/

/-- The most entries the Priority List holds (R123). -/
def priorityLimit : Nat := 8

/-- The clamped mask of an URGENT or DISTRESS docket (R124). -/
def priorityMask (s : State) (slot : Nat) : BitVec 8 :=
  BitVec.ofNat 8 (s.slotField slot 32 1) &&& 0x3F &&& enabledMask s.store.working

/-- The entry of an URGENT or DISTRESS docket (R123, R125). -/
def newPriority (s : State) (slot : Nat) (distress : Bool) : PrioEntry :=
  { slot := slot, distress := distress, mask := priorityMask s slot, firstPage := s.slotField slot 34 2
    out := pendingOn (priorityMask s slot)
    limit := if distress then none else some (s.store.working.urgentMinutes * 60000)
    limitPassed := false, withdrawn := false, changed := true, passing := false }

/-- An URGENT or DISTRESS docket is taken and offered (R125): an urgent bulletin to each channel of its mask as a pick
trigger, a relay to each in channel order by the channel's state. -/
def enterPriority (e : PrioEntry) (s : State) : State :=
  let s1 : State := { s with priority := s.priority ++ [e] }
  if e.distress then afterPriority e.slot (eachChan (offerRelay e.slot) (maskChans e.mask) s1)
  else eachChan trigger (maskChans e.mask) s1

/-- The intake of an URGENT or DISTRESS docket (R124). -/
def priorityIntake (bus : Bus) (slot : Nat) (distress : Bool) (s : State) : State :=
  if maskChans (priorityMask s slot) = [] then refuse slot .badChannel s
  else if priorityLimit ≤ s.priority.length then holdDocket s
  else
    walkThen bus slot (s.slotField slot 34 2)
      (fun s => enterPriority (newPriority s slot distress) (takeDocket bus slot s)) s

/-- The meaning of URGENT (R124, R125). -/
def execUrgent (slot : Nat) (bus : Bus) (s : State) : Host.Outcome State Fault Refusal :=
  .next (powered (intake bus slot (some .urgent) (priorityIntake bus slot false)) s)

/-- The meaning of DISTRESS (R124 to R126). -/
def execDistress (slot : Nat) (bus : Bus) (s : State) : Host.Outcome State Fault Refusal :=
  .next (powered (intake bus slot (some .distress) (priorityIntake bus slot true)) s)

/-! ## WITHDRAW (R78 to R81, R118, R134) -/

/-- The item of a telex becomes ENDING, and the result fixed at a cut becomes WITHDRAWN (R56, R80). -/
def makeEnding (c : Chan) (slot : Nat) (s : State) : State :=
  (s.setTelex slot (fun i => { i with state := .ending })).setChan c (fun ch =>
    if ch.segment = some .cutNotice then { ch with fixed := some (.ends .withdrawn) } else ch)

/-- A WITHDRAW of a telex item (R79, R80, R81). -/
def withdrawTelex (slot : Nat) (item : TelexItem) (s : State) : State :=
  let c := item.channel
  match item.state with
  | .ending => refuse slot .alreadyEnding s
  | .queued => answerDone slot (endTelex item.slot .withdrawn s)
  | .interrupted => answerDone slot (endTelex item.slot .withdrawn s)
  | .calling => answerDone slot (endOnAir c .withdrawn s)
  | .onAir =>
    if (s.chan c).state = .sending then answerDone slot (makeEnding c item.slot s)
    else answerDone slot (endOnAir c .withdrawn s)

/-- A WITHDRAW of a calendar entry (R118). -/
def withdrawBulletin (slot : Nat) (e : CalEntry) (s : State) : State :=
  if e.withdrawn then refuse slot .alreadyEnding s else answerDone slot (withdrawEntry e s)

/-- A WITHDRAW of an entry of the Priority List (R78, R134). -/
def withdrawPriority (slot : Nat) (e : PrioEntry) (s : State) : State :=
  if e.distress then refuse slot .notWithdrawable s
  else if e.withdrawn then refuse slot .alreadyEnding s
  else answerDone slot (withdrawUrgent e.slot s)

/-- The intake of a WITHDRAW docket (R78). -/
def withdrawIntake (slot : Nat) (s : State) : State :=
  let target := s.slotField slot 32 1
  match s.telexAt target, s.entryAt target, s.prioAt target with
  | some i, _, _ => withdrawTelex slot i s
  | none, some e, _ => withdrawBulletin slot e s
  | none, none, some e => withdrawPriority slot e s
  | none, none, none => refuse slot .notHeld s

/-- The meaning of WITHDRAW (R78). -/
def execWithdraw (slot : Nat) (bus : Bus) (s : State) : Host.Outcome State Fault Refusal :=
  .next (powered (intake bus slot (some .withdraw) (withdrawIntake slot)) s)

end Sys2Proof.Machine
end

