-- ==== Sys2Proof/Machine/Requests.lean ====
section
/-! DEFINITION. The intake of the dockets that act on channels: HOLD, RELEASE, RETUNE, SNAPSHOT (chapter 2), CLEARFAULT
and QUIETEN (chapter 9); and of a docket of an unknown kind (R172). -/

namespace Sys2Proof.Machine

/-- Applies an intake to the channel a docket names; a channel field outside 1 to 6 is refused with BAD_CHANNEL (R158,
R159, R172). -/
def onChannel (slot : Nat) (f : Chan → State → State) (s : State) : State :=
  match s.docketChannel slot with
  | some c => f c s
  | none => refuse slot .badChannel s

/-! ## HOLD (R33) -/

/-- A HOLD is taken and pending. -/
def takeHold (bus : Bus) (slot : Nat) (c : Chan) (s : State) : State :=
  (takeDocket bus slot s).setChan c (fun ch => { ch with pendingHold := some slot })

/-- A HOLD taken on a telex item in KEYING or CALLING (R33, R74): it is handed back, its cuts count advances (R77),
and the channel becomes free with the HOLD pending. Its first-line reading is discarded, as at a cut (DESIGN CHOICE, unsafe:
notes/assumptions/77.md). -/
def holdCall (bus : Bus) (slot : Nat) (c : Chan) (item : Nat) (s : State) : State :=
  handBackFree c ((takeHold bus slot c s).setTelex item TelexItem.cut)

/-- A HOLD taken on a channel in KEYING or CALLING. -/
def holdBeforeText (bus : Bus) (slot : Nat) (c : Chan) (s : State) : State :=
  match s.telexOn c with
  | some item => holdCall bus slot c item.slot s
  | none => takeHold bus slot c s

/-- A HOLD docket at the sequencer of its channel: by the first row of R33 that matches. -/
def holdChannel (bus : Bus) (slot : Nat) (c : Chan) (s : State) : State :=
  let ch := s.chan c
  if ch.state = .off ∨ ch.offWaits then refuse slot .channelOff s
  else if ch.state = .faulted ∨ ch.state = .lockedOut then refuse slot .channelFaulted s
  else if ch.state = .held ∨ ch.pendingHold.isSome then answerDone slot s
  else if ch.state = .idle ∨ ch.state = .unready ∨ ch.state = .hang then enterHeld c (takeHold bus slot c s)
  else if ch.state = .keying ∨ ch.state = .calling then holdBeforeText bus slot c s
  else takeHold bus slot c s

/-- The meaning of HOLD (R33). -/
def execHold (slot : Nat) (bus : Bus) (s : State) : Host.Outcome State Fault Refusal :=
  .next (powered (intake bus slot (some .hold) (onChannel slot (holdChannel bus slot))) s)

/-! ## RELEASE (R36) -/

/-- A RELEASE docket at the sequencer of its channel. -/
def releaseChannel (slot : Nat) (c : Chan) (s : State) : State :=
  answerDone slot (if (s.chan c).state = .held then enterIdle c s else s)

/-- The meaning of RELEASE (R36). -/
def execRelease (slot : Nat) (bus : Bus) (s : State) : Host.Outcome State Fault Refusal :=
  .next (powered (intake bus slot (some .release) (onChannel slot (releaseChannel slot))) s)

/-! ## RETUNE (R37) -/

/-- A RETUNE docket at the sequencer of its channel: by the first row of R37 that matches. -/
def retuneChannel (bus : Bus) (slot preset : Nat) (c : Chan) (s : State) : State :=
  let ch := s.chan c
  let taken := takeDocket bus slot s
  let pending := taken.setChan c (fun ch => { ch with pendingRetune := some (slot, preset) })
  if ch.state = .off ∨ ch.offWaits then refuse slot .channelOff s
  else if ch.state = .faulted ∨ ch.state = .lockedOut then refuse slot .channelFaulted s
  else if ch.pendingRetune.isSome ∨ ch.state = .retuning then holdDocket s
  else if ch.state = .held ∨ ch.state = .unready then
    enterRetuning c (some slot) preset (decide (ch.state = .held)) taken
  else if ch.state = .idle ∨ ch.state = .hang then trigger c pending
  else pending

/-- The intake of a RETUNE docket: a preset above 31 is refused with BAD_CHANNEL (R172). -/
def retuneIntake (bus : Bus) (slot : Nat) (c : Chan) (s : State) : State :=
  let preset := s.slotField slot 33 1
  if 31 < preset then refuse slot .badChannel s else retuneChannel bus slot preset c s

/-- The meaning of RETUNE (R37). -/
def execRetune (slot : Nat) (bus : Bus) (s : State) : Host.Outcome State Fault Refusal :=
  .next (powered (intake bus slot (some .retune) (onChannel slot (retuneIntake bus slot))) s)

/-! ## SNAPSHOT (R43) -/

/-- What a SNAPSHOT shows of a channel (R43). -/
def State.chanView (s : State) (c : Chan) : ChanView :=
  let ch := s.chan c
  { state := ch.state, preset := ch.preset, faults := ch.line.faults, lastKind := ch.line.lastKind
    queued := (s.queue c).length, onAir := ch.onAir.map OnAir.slot }

/-- The intake of a SNAPSHOT docket (R43). -/
def snapshotIntake (slot : Nat) (s : State) : State :=
  answerAtIntake slot .done none (.snapshot (Six.ofFn s.chanView)) s

/-- The meaning of SNAPSHOT (R43). -/
def execSnapshot (slot : Nat) (bus : Bus) (s : State) : Host.Outcome State Fault Refusal :=
  .next (powered (intake bus slot (some .snapshot) (snapshotIntake slot)) s)

/-! ## CLEARFAULT and QUIETEN (R158, R159) -/

/-- Steps 1 to 3 of the clearing of R158. -/
def LineSection.clearFaults (l : LineSection) : LineSection :=
  { l with faults := 0, quiet := none, recoveryReported := true }

/-- A clearing (R31, R158): a LOCKED_OUT channel enters IDLE, or OFF if it is disabled; a FAULTED one goes as at a
recovery. -/
def clearChannel (c : Chan) (s : State) : State :=
  let s1 := s.setChan c (fun ch => { ch with line := ch.line.clearFaults })
  if (s1.chan c).state = .lockedOut then (if s1.enabled c then enterIdle c s1 else enterOff c s1) else recover c s1

/-- A CLEARFAULT docket at the line section of its channel (R158). After a part reset and before the first check the ALARM
run has no level: the channel is cleared (DESIGN CHOICE, unsafe: R158 has rows for present and absent only;
notes/assumptions/49.md). -/
def clearfaultChannel (slot : Nat) (c : Chan) (s : State) : State :=
  let ch := s.chan c
  if ch.state = .faulted ∨ ch.state = .lockedOut then
    (if ch.line.alarm.level = some true then refuse slot .lineActive s else answerDone slot (clearChannel c s))
  else answerDone slot s

/-- The meaning of CLEARFAULT (R158). -/
def execClearfault (slot : Nat) (bus : Bus) (s : State) : Host.Outcome State Fault Refusal :=
  .next (powered (intake bus slot (some .clearfault) (onChannel slot (clearfaultChannel slot))) s)

/-- The quiet period at a QUIETEN (R159). -/
def quietened (quiet : Option Nat) : Option Nat := quiet.map (fun n => min n 2000)

/-- A QUIETEN docket at the line section of its channel (R159). -/
def quietenChannel (slot : Nat) (c : Chan) (s : State) : State :=
  answerDone slot (s.setChan c (fun ch => { ch with line := { ch.line with quiet := quietened ch.line.quiet } }))

/-- The meaning of QUIETEN (R159). -/
def execQuieten (slot : Nat) (bus : Bus) (s : State) : Host.Outcome State Fault Refusal :=
  .next (powered (intake bus slot (some .quieten) (onChannel slot (quietenChannel slot))) s)

/-! ## A docket of an unknown kind (R172) -/

/-- The meaning of BAD_KIND (R172). -/
def execBadKind (slot : Nat) (bus : Bus) (s : State) : Host.Outcome State Fault Refusal :=
  .next (powered (intake bus slot none (refuse slot .badKind)) s)

end Sys2Proof.Machine
end

