-- ==== Sys2Proof/Machine/Settings.lean ====
section
/-! DEFINITION. The Settings Store (chapter 11): SETUP, SETUP EXIT, SETTINGS READ, SETTINGS WRITE and COMMIT dockets. -/

namespace Sys2Proof.Machine

/-! ## SETUP (R180) -/

/-- A channel that stands in the way of setup mode (R180). -/
def ChState.busy (x : ChState) : Bool :=
  match x with
  | .keying | .calling | .sending | .closing => true
  | .off | .idle | .unready | .hang | .retuning | .held | .faulted | .lockedOut => false

/-- The intake of a SETUP docket (R180). -/
def setupIntake (slot : Nat) (s : State) : State :=
  if s.inSetup then refuse slot .inSetup s
  else if Chan.all.any (fun c => (s.chan c).state.busy) then refuse slot .channelsBusy s
  else answerDone slot { s with store := { s.store with setup := true, staged := some s.store.working } }

/-- The meaning of SETUP (R180). -/
def execSetup (slot : Nat) (bus : Bus) (s : State) : Host.Outcome State Fault Refusal :=
  .next (powered (intake bus slot (some .setup) (setupIntake slot)) s)

/-! ## SETUP EXIT (R27, R181) -/

/-- A channel's own part of being switched OFF (R27): its retune and its requests are answered CLOSED, its follower
mark is cleared, and it enters OFF, or awaits its next boundary if it carries a relay. A LOCKED_OUT channel stays. Its
CLOSED answers come in the order retune in progress, pending RETUNE, pending HOLD, and before that of a bulletin whose
follower mark is cleared (DESIGN CHOICE, unsafe: neither R27 nor R181 orders them; notes/assumptions/69.md). -/
def switchOff (c : Chan) (s : State) : State :=
  let ch := s.chan c
  if ch.state = .lockedOut then s
  else
    let s1 := endRetune c .closed s
    let s2 := answerHeld (ch.pendingRetune.map Prod.fst) .closed s1
    let s3 := (answerHeld ch.pendingHold .closed s2).setChan c (fun ch =>
      { ch with pendingRetune := none, pendingHold := none, stopAtBoundary := false })
    if ch.onAir.map OnAir.kind = some .distress then
      clearMark c (s3.setChan c (fun ch => { ch with offWaits := true }))
    else enterOff c (abruptCut c .notUsed s3)

/-- A channel switched ON enters IDLE with ready view PRESENT (R27); a LOCKED_OUT channel stays. -/
def switchOn (c : Chan) (s : State) : State :=
  if (s.chan c).state = .off then enterIdle c (s.setChan c (fun ch => { ch with readyView := true })) else s

/-- The AUX level and last sample after an exit (R160): none, unless the designation is and stays STOP_KEY with its
stop edge unchanged. -/
def LineSection.newAux (old new : ChanSettings) (l : LineSection) : LineSection :=
  if new.aux = .stopKey ∧ old.aux = .stopKey ∧ old.edge = new.edge then l
  else { l with auxLevel := none, auxLast := none }

/-- Runs an owner's part of an event apart from the others': the state with the backlog as it was, and the answers the
owner made. -/
def apart (f : State → State) (acc : State × List (List Answer)) : State × List (List Answer) :=
  let s1 := f acc.1
  ({ s1 with rack := { s1.rack with backlog := acc.1.rack.backlog } },
    acc.2 ++ [s1.rack.backlog.drop acc.1.rack.backlog.length])

/-- Takes the first answer of the list at a place. -/
def takeFirst : Nat → List (List Answer) → Option Answer × List (List Answer)
  | _, [] => (none, [])
  | 0, l :: rest => (l.head?, l.tail :: rest)
  | n + 1, l :: rest => ((takeFirst n rest).1, l :: (takeFirst n rest).2)

/-- The answers of several owners in one order that keeps each owner's own: the order between owners is a free choice
(R181; notes/assumptions/5.md). Answers the state with the choices used. -/
def mergeAnswers : Nat → List (List Answer) → State → State
  | 0, _, s => s
  | n + 1, lists, s =>
    match lists.filter (fun l => l ≠ []) with
    | [] => s
    | [l] => { s with rack := { s.rack with backlog := s.rack.backlog ++ l } }
    | some2 =>
      let t := takeFirst (s.freeChoice % some2.length) some2
      let s1 := s.useChoice
      mergeAnswers n t.2 { s1 with rack := { s1.rack with backlog := s1.rack.backlog ++ t.1.toList } }

/-- Step 2 of R181 for the channels switched OFF: each sequencer, the Telex Queue, the calendar and the Priority List
act (R27, R82, R120, R135), and their answers enter the backlog. -/
def switchOffAll (offs : List Chan) (s : State) : State :=
  let acc0 := offs.foldl (fun acc c => apart (switchOff c) acc) (s, [])
  let acc1 := apart (eachChan closeQueue offs) acc0
  let acc2 := apart (calendarLoses offs) acc1
  let acc3 := apart (priorityLoses offs) acc2
  mergeAnswers ((acc3.2.map List.length).foldl (· + ·) 0) acc3.2 acc3.1

/-- The channels whose enabled setting changes to a value. -/
def switched (old new : Image) (level : Bool) : List Chan :=
  Chan.all.filter (fun c => decide ((old.chan.get c).enabled ≠ level) && decide ((new.chan.get c).enabled = level))

/-- A FAULTED channel judges its pending relays by the new distress-on-fault setting (R127, R181). -/
def rejudge (c : Chan) (s : State) : State := if (s.chan c).state = .faulted then judgeReduced c s else s

/-- Steps 1 to 3 of R181, with the staged image that goes into force (notes/assumptions/27.md). The answers of relays
that the new distress-on-fault value fails stand behind those of the channels switched OFF and before the exit's own
DONE (DESIGN CHOICE, unsafe: notes/assumptions/51.md). -/
def leaveSetup (staged : Image) (s : State) : State :=
  let old := s.store.working
  let s1 : State := { s with store := { s.store with working := staged, staged := none, setup := false } }
  let s2 := switchOffAll (switched old staged false) s1
  let s3 := eachChan switchOn (switched old staged true) s2
  let s4 := eachChan (fun c s => s.setChan c (fun ch =>
    { ch with line := ch.line.newAux (old.chan.get c) (staged.chan.get c) })) Chan.all s3
  let s5 := eachChan rejudge Chan.all s4
  eachChan (fun c s => compareWait c (trigger c s)) Chan.all s5

/-- The intake of a SETUP EXIT docket (R181). -/
def setupExitIntake (slot : Nat) (s : State) : State :=
  match s.inSetup, s.store.staged with
  | true, some staged => answerDone slot (leaveSetup staged s)
  | _, _ => refuse slot .notInSetup s

/-- The meaning of SETUP_EXIT (R181). -/
def execSetupExit (slot : Nat) (bus : Bus) (s : State) : Host.Outcome State Fault Refusal :=
  .next (powered (intake bus slot (some .setupExit) (setupExitIntake slot)) s)

/-! ## SETTINGS READ and SETTINGS WRITE (R182, R183) -/

/-- The first page of image of a docket (chapter 10.2). -/
def State.imagePage (s : State) (slot : Nat) : Nat := s.slotField slot 32 2

/-- A first page of image whose second block is a page too (R182). -/
def imagePageOk (n : Nat) : Bool := decide (1 ≤ n ∧ n ≤ 4094)

/-- The bytes of an image in the page area (chapter 11.2). -/
def imageSize : Nat := 512

/-- The intake of a SETTINGS READ docket (R183): the working image, its key as eight 0x00 codes, is written out, by
rising offset, which decides what the blocks hold after a bus error (DESIGN CHOICE, unsafe: R183 gives no order;
notes/assumptions/68.md). A BUS_FAULT answer leaves the values clamped field as it was (DESIGN CHOICE, unsafe: R183 gives
its value with DONE alone; notes/assumptions/74.md). -/
def settingsReadIntake (bus : Bus) (slot : Nat) (s : State) : State :=
  let page := s.imagePage slot
  let cells := bytesAt (pageOffset page) (Image.bytes { s.store.working with key := List.replicate 8 0 })
  if !imagePageOk page then refuse slot .badText s
  else
    match busPart bus isImageWrite with
    | some n =>
      answerAtIntake slot .busFault none .none ((s.storeAt s.rack.pageBase (partWrite n cells)).raise .busErr)
    | none => answerAtIntake slot .done none (.clamped 0) (s.storeAt s.rack.pageBase cells)

/-- The meaning of SETTINGS_READ (R183). -/
def execSettingsRead (slot : Nat) (bus : Bus) (s : State) : Host.Outcome State Fault Refusal :=
  .next (powered (intake bus slot (some .settingsRead) (settingsReadIntake bus slot)) s)

/-- The intake of a SETTINGS WRITE docket (R182): a new staged image is built, field by field. A BUS_FAULT answer leaves
the values clamped field as it was (DESIGN CHOICE, unsafe: R182 gives its value with DONE alone;
notes/assumptions/74.md). -/
def settingsWriteIntake (bus : Bus) (slot : Nat) (s : State) : State :=
  let page := s.imagePage slot
  let bytes := s.readBytes s.rack.pageBase (pageOffset page) imageSize
  if !s.inSetup then refuse slot .notInSetup s
  else if !imagePageOk page then refuse slot .badText s
  else if busFails bus .imageRead then answerAtIntake slot .busFault none .none (s.raise .busErr)
  else
    answerAtIntake slot .done none (.clamped (clampedCount bytes))
      { s with store := { s.store with staged := some (imageOfBytes bytes) } }

/-- The meaning of SETTINGS_WRITE (R182). -/
def execSettingsWrite (slot : Nat) (bus : Bus) (s : State) : Host.Outcome State Fault Refusal :=
  .next (powered (intake bus slot (some .settingsWrite) (settingsWriteIntake bus slot)) s)

/-! ## COMMIT (R184) -/

/-- The longest that the write of a COMMIT takes, in milliseconds (R184). -/
def commitLimit : Nat := 250

/-- A commit begins (R184). -/
def beginCommit (slot : Nat) (s : State) : State :=
  { s with store := { s.store with commit := some { slot := slot, copy := s.store.working, elapsed := 0 } } }

/-- The intake of a COMMIT docket (R184). -/
def commitIntake (bus : Bus) (slot : Nat) (s : State) : State :=
  if s.store.commit.isSome then holdDocket s
  else if s.store.protection = .fixed then refuse slot .fixed s
  else if s.store.protection = .keyed ∧ s.slotBytes slot 32 8 ≠ s.store.key then refuse slot .keyWrong s
  else beginCommit slot (takeDocket bus slot s)

/-- The meaning of COMMIT (R184). -/
def execCommit (slot : Nat) (bus : Bus) (s : State) : Host.Outcome State Fault Refusal :=
  .next (powered (intake bus slot (some .commit) (commitIntake bus slot)) s)

/-- The stored image left with a bad checksum (R184; notes/assumptions/7.md). -/
def StoredImage.spoil (x : StoredImage) : StoredImage :=
  { x with checksum := x.image.checksum + 1 + BitVec.ofNat 16 Config.badChecksumOffset.val }

/-- The completion of a commit (R184). -/
def commitEnds (k : Commit) (success : Bool) (s : State) : State :=
  if success then
    answerTaken k.slot .done .none false
      { s with store := { s.store with
          stored := { image := k.copy, checksum := k.copy.checksum }
          protection := k.copy.protection, key := k.copy.key, commit := none } }
  else
    (answerTaken k.slot .failed .none false
      { s with store := { s.store with stored := s.store.stored.spoil, commit := none } }).raise .nvErr

end Sys2Proof.Machine
end

