-- ==== Sys2Proof/Machine/Reset.lean ====
section
/-! DEFINITION. Power and resets: the load of the settings (R179), power-on, part reset (R44, R165, R177), power loss
(R184), and the completion of a COMMIT, which may bring a part reset with it. -/

namespace Sys2Proof.Machine

/-- The stored image has a good checksum (R179). -/
def StoredImage.good (x : StoredImage) : Bool := decide (x.checksum = x.image.checksum)

/-- The Settings Store loaded from its stored image, or from the factory defaults if that is bad (R178, R179). -/
def Store.load (x : Store) : Store :=
  { stored := x.stored
    working := if x.stored.good then x.stored.image else Image.factory
    staged := none
    setup := false
    protection := if x.stored.good then x.stored.image.protection else .openLevel
    key := if x.stored.good then x.stored.image.key else List.replicate 8 0
    commit := none
    resetWaits := false }

/-- The event flags after a load: none, or NVERR if the stored image is bad (R177, R179). -/
def Store.loadFlags (x : Store) : Word := if x.stored.good then 0 else Flag.nvErr.word

/-- A channel at a part reset (R44, R66, R98, R149, R163). -/
def Channel.partReset (item : ItemSettings) (enabled : Bool) (ch : Channel) : Channel :=
  let line := { LineSection.powerOn with faults := ch.line.faults, lastKind := ch.line.lastKind, check := ch.line.check }
  { Channel.blank ch.preset item line with
    state :=
      if ch.line.faults = 3 then .lockedOut
      else if !enabled then .off
      else if ch.state = .faulted then .faulted
      else .idle }

/-- The Rack Port at a part reset (R177). -/
def Rack.partReset (mask : Word) (flags : Word) (r : Rack) : Rack :=
  { Rack.powerOn mask with epoch := if r.epoch = 65535 then 1 else r.epoch + 1, events := flags }

/-- The marking walks under way are abandoned where they stand (R149). -/
def abandonWalks (s : State) : State := eachChan abandonWalk Chan.all s

/-- A part reset (R3, R44, R83, R98, R122, R137, R149, R163, R165, R177, R178). -/
def partReset (s : State) : State :=
  let s1 := abandonWalks s
  let store := s1.store.load
  { s1 with
    rack := s1.rack.partReset store.working.attentionMask s1.store.loadFlags
    store := store
    telex := [], calendar := [], priority := []
    chans := Six.ofFn (fun c =>
      Channel.partReset (ItemSettings.ofImage store.working c) (store.working.chan.get c).enabled (s1.chan c)) }

/-- A part reset is asked for: while a COMMIT is in progress it waits for the completion (R165, R184). -/
def requestReset (s : State) : State :=
  if s.store.commit.isSome then { s with store := { s.store with resetWaits := true } } else partReset s

/-- The meaning of CONTROL_RESET (R165): the bits written with RESET are ignored. -/
def execControlReset (_run _sweep : Bool) (s : State) : Host.Outcome State Fault Refusal :=
  .next (powered requestReset s)

/-- The meaning of RESET_INPUT (R165): a change from absent to present asks for one part reset. -/
def execResetInput (present : Bool) (s : State) : Host.Outcome State Fault Refusal :=
  let s1 : State := { s with resetPin := present }
  .next (if present && !s.resetPin then powered requestReset s1 else s1)

/-- The meaning of COMMIT_COMPLETION (R184): a commit in progress for at least 1 ms ends, and a part reset that waits
for it takes effect. -/
def execCommitCompletion (success : Bool) (s : State) : Host.Outcome State Fault Refusal :=
  .next (powered (fun s =>
    match s.store.commit with
    | none => s
    | some k =>
      if k.elapsed = 0 then s
      else
        let ended := commitEnds k success s
        if s.store.resetWaits then partReset ended else ended) s)

/-- The non-volatile memory once power is gone: a write in progress leaves the stored image bad (R184). -/
def Store.unpowered (x : Store) : StoredImage := if x.commit.isSome then x.stored.spoil else x.stored

/-- The card without power: nothing but the stored image, the RESET input's level and host memory is left of it. -/
def powerDown (s : State) : State :=
  let s1 := abandonWalks s
  { s1 with
    power := false
    clock := { value := 0, isSet := false }
    rack := Rack.powerOn 0
    store := { (Store.load { s1.store with stored := s1.store.unpowered }) with working := Image.factory }
    telex := [], calendar := [], priority := []
    chans := Six.ofFn (fun c => Channel.blank 0 (ItemSettings.ofImage Image.factory c) LineSection.powerOn) }

/-- A channel at power-on (R42, R44): an enabled one begins its start-up retune. -/
def Channel.powerOn (img : Image) (c : Chan) : Channel :=
  let k := img.chan.get c
  let blank := Channel.blank k.startPreset (ItemSettings.ofImage img c) LineSection.powerOn
  if k.enabled then
    { blank with state := .retuning, strobe := some 10, retuneLimit := some (img.retuneSeconds * 1000) }
  else blank

/-- Power-on (R3, R42, R44, R177, R178, R179). -/
def powerUp (s : State) : State :=
  let s1 := powerDown s
  let store := s1.store.load
  { s1 with
    power := true
    rack := { Rack.powerOn store.working.attentionMask with events := s1.store.loadFlags }
    store := store
    chans := Six.ofFn (Channel.powerOn store.working) }

/-- The meaning of POWER_ON (R179): the card powers up, from no power or by an interruption of it
(notes/assumptions/25.md). -/
def execPowerOn (s : State) : Host.Outcome State Fault Refusal := .next (powerUp s)

/-- The meaning of POWER_LOSS (R184). -/
def execPowerLoss (s : State) : Host.Outcome State Fault Refusal := .next (powered powerDown s)

end Sys2Proof.Machine
end

