-- ==== Sys2Proof/Machine/Time.lean ====
section
/-! DEFINITION. The Station Clock (chapter 1): the tick, the arrivals and limits it brings, and SETCLOCK. -/

namespace Sys2Proof.Machine

/-! ## The tick (R1, R12, R13) -/

/-- The clock at a tick (R1). -/
def Clock.tick (k : Clock) : Clock := { k with value := if k.value + 1 = dayMs then 0 else k.value + 1 }

/-- A Call Unit at a tick. -/
def CallUnit.tick (u : CallUnit) : CallUnit := { u with timer := tickTimer u.timer }

/-- A Page Fetcher at a tick. -/
def Fetcher.tick (f : Fetcher) : Fetcher := { f with reread := tickTimer f.reread, starvation := tickTimer f.starvation }

/-- A line section at a tick. -/
def LineSection.tick (l : LineSection) : LineSection := { l with quiet := tickTimer l.quiet, check := tickTimer l.check }

/-- A channel's timers at a tick. -/
def Channel.tick (ch : Channel) : Channel :=
  { ch with
    lead := tickTimer ch.lead, hang := tickTimer ch.hang, retuneLimit := tickTimer ch.retuneLimit
    strobe := tickTimer ch.strobe, period := tickTimer ch.period
    call := ch.call.tick, fetch := ch.fetch.tick, line := ch.line.tick }

/-- The latest-start limit of an entry can pass (R13, R110): it is DUE, its limit has not passed, and it is not
withdrawn (R118). -/
def CalEntry.limitRuns (e : CalEntry) : Bool := decide (e.phase = some .due) && !e.limitPassed && !e.withdrawn

/-- A calendar entry at a tick that brings the clock to `now` (R2, R13): of a DUE entry, withdrawn or not, r falls while
it is above 0, and e counts; its limit passes at the tick that finds r at 0, where it can pass; a WAITING entry whose
start time has arrived is marked. -/
def CalEntry.tick (now : Nat) (e : CalEntry) : CalEntry :=
  { e with
    r := if e.phase = some .due ∧ 0 < e.r then e.r - 1 else e.r
    passing := e.passing || (e.limitRuns && decide (e.r ≤ 0))
    e := if e.phase = some .due then e.e + 1 else e.e
    arrived := e.arrived || (e.awaits && decide (e.start = now)) }

/-- An entry of the Priority List at a tick (R13). -/
def PrioEntry.tick (e : PrioEntry) : PrioEntry :=
  { e with limit := e.limit.map (fun n => n - 1), passing := e.passing || decide (e.limit = some 0) }

/-- A COMMIT in progress at a tick: its write ends 1 to 250 ms after it began (R184), and one that is 250 ms old waits
for its completion (notes/assumptions/38.md). -/
def Commit.tick (k : Commit) : Commit := { k with elapsed := min (k.elapsed + 1) commitLimit }

/-- A tick (R1, R12, R13). -/
def tick (s : State) : State :=
  let clock := s.clock.tick
  { s with
    clock := clock
    rack := { s.rack with sweepTimer := tickTimer s.rack.sweepTimer }
    store := { s.store with commit := s.store.commit.map Commit.tick }
    calendar := s.calendar.map (CalEntry.tick clock.value)
    priority := s.priority.map PrioEntry.tick
    chans := Six.ofFn (fun c => (s.chan c).tick) }

/-- The meaning of STATION_CLOCK_TICK (R1): the expiries, arrivals and passings that a tick brings are commands of
their own (notes/assumptions/11.md). -/
def execStationClockTick (s : State) : Host.Outcome State Fault Refusal := .next (powered tick s)

/-! ## What a tick brings (R107, R110, R132) -/

/-- The entries whose start time has arrived, in calendar order (R107). -/
def State.arrivals (s : State) : List CalEntry := s.ordered.filter (fun e => e.arrived && e.awaits)

/-- The entries whose start time has arrived become DUE, in calendar order (R107). They stop bounding their channels
(R108), and a channel in the lookahead wait compares again (R59). -/
def startTimes (s : State) : State :=
  s.arrivals.foldl (fun s e => eachChan compareWait (maskChans e.mask) s)
    (s.arrivals.foldl (fun s e => becomeDue e s) s)

/-- The meaning of START_TIME_EXPIRY (R107). -/
def execStartTimeExpiry (bus : Bus) (s : State) : Host.Outcome State Fault Refusal :=
  .next (powered (fun s => settleEvent bus (startTimes (s.hostStores bus))) s)

/-- The latest-start limit of the entry of a slot passes, if the tick that passes it has come (R13, R110). -/
def latestStart (slot : Nat) (s : State) : State :=
  match s.entryAt slot with
  | none => s
  | some e => if e.passing && e.limitRuns then limitPasses e s else s

/-- The meaning of LATEST_START_PASSED (R110). -/
def execLatestStartPassed (slot : Nat) (bus : Bus) (s : State) : Host.Outcome State Fault Refusal :=
  .next (powered (fun s => settleEvent bus (latestStart slot (s.hostStores bus))) s)

/-- The urgent limit of the entry of a slot passes, if the tick that passes it has come (R13, R132). -/
def urgentLimit (slot : Nat) (s : State) : State :=
  match s.prioAt slot with
  | none => s
  | some e => if e.passing && e.limit.isSome then urgentPasses e s else s

/-- The meaning of URGENT_LIMIT_PASSED (R132). -/
def execUrgentLimitPassed (slot : Nat) (s : State) : Host.Outcome State Fault Refusal :=
  .next (powered (urgentLimit slot) s)

/-! ## SETCLOCK (R6 to R9) -/

/-- The jump reported to the calendar (R7, R8, R9). -/
def jumpCalendar (old new : Nat) (s : State) : State :=
  let jump := forward old new
  if jumpForward jump then forwardJump old new jump s else backwardJump old new s

/-- What a SETCLOCK brings to a channel: the jump is a pick trigger (R21), and a channel in the lookahead wait compares
again after a forward jump (R14, R59). After a backward one it does not: R14 says that a backward jump ends no wait, and
R59 that any SETCLOCK is followed by a comparison. The next tick's comparison stands (DESIGN CHOICE, unsafe;
notes/assumptions/43.md). -/
def jumpReaches (forward : Bool) (c : Chan) (s : State) : State :=
  if forward then compareWait c (trigger c s) else trigger c s

/-- A SETCLOCK carried out (R6), by the calendar and then by each channel. A backward one makes no comparison in the
lookahead wait (notes/assumptions/43.md). -/
def setClock (new : Nat) (s : State) : State :=
  eachChan (jumpReaches (jumpForward (forward s.clock.value new))) Chan.all
    (jumpCalendar s.clock.value new { s with clock := { value := new, isSet := true } })

/-- The intake of a SETCLOCK docket (R6). -/
def setclockIntake (slot : Nat) (s : State) : State :=
  let new := s.slotField slot 32 4
  if dayMs ≤ new then refuse slot .badTime s else answerDone slot (setClock new s)

/-- The meaning of SETCLOCK (R6). -/
def execSetclock (slot : Nat) (bus : Bus) (s : State) : Host.Outcome State Fault Refusal :=
  .next (powered (intake bus slot (some .setclock) (setclockIntake slot)) s)

end Sys2Proof.Machine
end

