-- ==== Sys2Proof/Machine/Dispatch.lean ====
section
/-! DEFINITION. The dispatch: one arm per command, each one direct call of its meaning. -/

namespace Sys2Proof.Machine

/-- The effect of a command on everything but the queue. -/
def exec (i : Instr) (s : State) : Host.Outcome State Fault Refusal :=
  match i with
  | .powerOn => Sys2Proof.Machine.execPowerOn s
  | .resetInput present => Sys2Proof.Machine.execResetInput present s
  | .controlReset run sweep => Sys2Proof.Machine.execControlReset run sweep s
  | .setRun sweep bus => Sys2Proof.Machine.execSetRun sweep bus s
  | .clearRun => Sys2Proof.Machine.execClearRun s
  | .sweep bus => Sys2Proof.Machine.execSweep bus s
  | .statusWrite value => Sys2Proof.Machine.execStatusWrite value s
  | .maskWrite value => Sys2Proof.Machine.execMaskWrite value s
  | .rackBaseWrite value => Sys2Proof.Machine.execRackBaseWrite value s
  | .pageBaseWrite value => Sys2Proof.Machine.execPageBaseWrite value s
  | .stationClockTick => Sys2Proof.Machine.execStationClockTick s
  | .startTimeExpiry bus => Sys2Proof.Machine.execStartTimeExpiry bus s
  | .latestStartPassed slot bus => Sys2Proof.Machine.execLatestStartPassed slot bus s
  | .urgentLimitPassed slot => Sys2Proof.Machine.execUrgentLimitPassed slot s
  | .sweepTimerExpiry bus => Sys2Proof.Machine.execSweepTimerExpiry bus s
  | .sweepEnd bus => Sys2Proof.Machine.execSweepEnd bus s
  | .telex slot bus => Sys2Proof.Machine.execTelex slot bus s
  | .bulletin slot bus => Sys2Proof.Machine.execBulletin slot bus s
  | .urgent slot bus => Sys2Proof.Machine.execUrgent slot bus s
  | .distress slot bus => Sys2Proof.Machine.execDistress slot bus s
  | .withdraw slot bus => Sys2Proof.Machine.execWithdraw slot bus s
  | .hold slot bus => Sys2Proof.Machine.execHold slot bus s
  | .release slot bus => Sys2Proof.Machine.execRelease slot bus s
  | .retune slot bus => Sys2Proof.Machine.execRetune slot bus s
  | .clearfault slot bus => Sys2Proof.Machine.execClearfault slot bus s
  | .quieten slot bus => Sys2Proof.Machine.execQuieten slot bus s
  | .setclock slot bus => Sys2Proof.Machine.execSetclock slot bus s
  | .snapshot slot bus => Sys2Proof.Machine.execSnapshot slot bus s
  | .setup slot bus => Sys2Proof.Machine.execSetup slot bus s
  | .setupExit slot bus => Sys2Proof.Machine.execSetupExit slot bus s
  | .settingsRead slot bus => Sys2Proof.Machine.execSettingsRead slot bus s
  | .settingsWrite slot bus => Sys2Proof.Machine.execSettingsWrite slot bus s
  | .commit slot bus => Sys2Proof.Machine.execCommit slot bus s
  | .commitCompletion success => Sys2Proof.Machine.execCommitCompletion success s
  | .badKind slot bus => Sys2Proof.Machine.execBadKind slot bus s
  | .characterBoundary c bus => Sys2Proof.Machine.execCharacterBoundary c bus s
  | .keyUpLeadExpiry c bus => Sys2Proof.Machine.execKeyUpLeadExpiry c bus s
  | .hangExpiry c bus => Sys2Proof.Machine.execHangExpiry c bus s
  | .tuneStrobeExpiry c => Sys2Proof.Machine.execTuneStrobeExpiry c s
  | .retuneLimitExpiry c => Sys2Proof.Machine.execRetuneLimitExpiry c s
  | .answerbackTimeout c bus => Sys2Proof.Machine.execAnswerbackTimeout c bus s
  | .closingCheckTimeout c bus => Sys2Proof.Machine.execClosingCheckTimeout c bus s
  | .rxdCodeArrival c code bus => Sys2Proof.Machine.execRxdCodeArrival c code bus s
  | .lineCheck c ready alarm aux bus => Sys2Proof.Machine.execLineCheck c ready alarm aux bus s
  | .quietPeriodExpiry c bus => Sys2Proof.Machine.execQuietPeriodExpiry c bus s
  | .lookaheadWaitThreshold c => Sys2Proof.Machine.execLookaheadWaitThreshold c s
  | .starvationExpiry c => Sys2Proof.Machine.execStarvationExpiry c s
  | .pageRereadTimerExpiry c => Sys2Proof.Machine.execPageRereadTimerExpiry c s
  | .telexPageRead c bus => Sys2Proof.Machine.execTelexPageRead c bus s
  | .bulletinPageRead c bus => Sys2Proof.Machine.execBulletinPageRead c bus s
  | .markingWalkEnd c bus => Sys2Proof.Machine.execMarkingWalkEnd c bus s
  | .powerLoss => Sys2Proof.Machine.execPowerLoss s

end Sys2Proof.Machine
end

