-- ==== Sys2Proof/Machine/Step.lean ====
section
/-! DEFINITION. One step of the part: the command at the front of the queue is carried out with the queue's rest; with
none waiting the part idles (notes/assumptions/12.md). -/

namespace Sys2Proof.Machine

/-- The state with the front command taken off its queue. -/
def State.dequeue (s : State) : State := { s with pending := s.pending.tail }

/-- One step. -/
def step (s : State) : Host.Outcome State Fault Refusal :=
  match s.pending with
  | [] => .next s
  | i :: _ => exec i s.dequeue

/-- The state with a command put at the front of its queue. -/
def State.enqueueFirst (i : Instr) (s : State) : State := { s with pending := i :: s.pending }

/-- The state with the command that a word spells at the front of its queue; unchanged where it spells none. -/
def State.withFetchWord (s : State) (nbits w : Nat) : State :=
  match decodeTableWord nbits w with
  | some i => s.enqueueFirst i
  | none => s

end Sys2Proof.Machine
end

