-- ==== Sys2Proof/Safety.lean ====
section
/-! DEFINITION. What the statements speak of: the state between events, the invariants of the part, the commands that
the present state makes possible, and addresses of host memory by what lies there. -/

namespace Sys2Proof.Machine

/-! ## Between events -/

/-- No channel has a pick asked for in this event, and none has a code due (R16, R21): the state between events. -/
def State.Calm (s : State) : Prop := ∀ c, (s.chan c).pick ≠ .now ∧ (s.chan c).codeDue = false

/-- A channel takes no pick: it is neither IDLE nor in HANG (R21, R22: picks are made in IDLE and HANG alone). -/
def State.takesNoPick (s : State) (c : Chan) : Prop := (s.chan c).state ≠ .idle ∧ (s.chan c).state ≠ .hang

/-- Nothing waits for a channel: no relay, HOLD or RETUNE is pending, it has no follower mark, and no urgent bulletin,
due bulletin or telex item waits on it (R22). -/
structure State.NothingFor (s : State) (c : Chan) : Prop where
  relay : s.pendingRelay c = none
  hold : (s.chan c).pendingHold = none
  retune : (s.chan c).pendingRetune = none
  mark : (s.chan c).follower = none
  urgent : s.waitingUrgent c = none
  due : s.dueEntry c = none
  queue : s.head c = none

/-- Nothing comes before a due bulletin at a pick on a channel outside setup mode (R22), and its key-up lead is not 0
(R25). -/
structure State.NothingBeforeDue (s : State) (c : Chan) : Prop where
  relay : s.pendingRelay c = none
  setup : s.store.setup = false
  hold : (s.chan c).pendingHold = none
  retune : (s.chan c).pendingRetune = none
  mark : (s.chan c).follower = none
  urgent : s.waitingUrgent c = none
  lead : (s.store.working.chan.get c).lead ≠ 0

/-- A pick in IDLE has put an item on a channel of `s` in `t` (R23, R25): KEYING, with the settings latched, the carrier
up with the idle code, and the lead running. -/
structure State.KeyedUp (s t : State) (c : Chan) (a : OnAir) : Prop where
  state : (t.chan c).state = .keying ∧ (t.chan c).key = true ∧ (t.chan c).onAir = some a
  lead : (t.chan c).lead = some (s.store.working.chan.get c).lead
  latched : (t.chan c).item = ItemSettings.ofImage s.store.working c
  code : (t.chan c).tx = some { kind := .idle, code := s.store.working.idle }
  period : (t.chan c).period = some (s.store.working.chan.get c).period

/-- No cause waits to cut a channel at its next character boundary: it is not to go OFF, no stop-key edge waits, and no
relay waits to displace its item (R19, R20, R27, R32). -/
structure State.Undisturbed (s : State) (c : Chan) : Prop where
  off : (s.chan c).offWaits = false
  stop : (s.chan c).stopAtBoundary = false
  relay : s.pendingRelay c = none

/-- A channel is free for its hang: nothing waits for it but the telex item on its air, which is its whole queue. -/
structure State.NothingBehind (s : State) (c : Chan) (item : TelexItem) : Prop where
  undisturbed : s.Undisturbed c
  hold : (s.chan c).pendingHold = none
  retune : (s.chan c).pendingRetune = none
  mark : (s.chan c).follower = none
  urgent : s.waitingUrgent c = none
  due : s.dueEntry c = none
  queue : s.queue c = [item]
  onAir : s.telexOn c = some item

/-! ## A cut that waits at the end of an attempt (R95) -/

/-- The telex item on the channel of `s` is handed back INTERRUPTED in `t`, at its offset, cut once and with the attempt
that has ended counted; the Call Unit is in STANDBY, no answer is made, and no other channel changes (R19, R77, R95). -/
structure State.HandedBackCounted (s t : State) (c : Chan) (item : TelexItem) : Prop where
  item : ∃ i, t.telexAt item.slot = some i ∧ i.state = .interrupted ∧ i.offset = item.offset
    ∧ i.cuts = (if item.cuts < 255 then item.cuts + 1 else item.cuts)
    ∧ i.attempts = (if item.attempts < 255 then item.attempts + 1 else item.attempts)
  call : (t.chan c).call.condition = .standby ∧ (t.chan c).call.timer = none ∧ (t.chan c).call.window = []
  rack : t.rack = s.rack
  others : ∀ d, d ≠ c → t.chan d = s.chan d

/-- The relay of `e` has taken the channel in `t` (R20): it is on the air with no lead, its first code not yet read. -/
structure State.RelayOnAir (t : State) (c : Chan) (e : PrioEntry) : Prop where
  state : (t.chan c).state = .sending ∧ (t.chan c).key = true ∧ (t.chan c).segment = none ∧ (t.chan c).lead = none
  onAir : (t.chan c).onAir = some { kind := .distress, slot := e.slot, repetition := 0, resumed := false }
  code : (t.chan c).tx.map Tx.kind = some .idle
  outcome : ∃ x, t.prioAt e.slot = some x ∧ x.out.get c = .onAir

/-- The stop key has taken the channel to HELD in `t` (R32, R34): the carrier is down and nothing is on the air. -/
structure State.HeldByStopKey (t : State) (c : Chan) : Prop where
  state : (t.chan c).state = .held ∧ (t.chan c).key = false ∧ (t.chan c).stopAtBoundary = false
  silent : (t.chan c).tx = none ∧ (t.chan c).onAir = none ∧ (t.chan c).segment = none

/-! ## Invariants -/

/-- The clock value lies in 0 to 86,399,999 (R1). -/
def State.ClockInRange (s : State) : Prop := s.clock.value < dayMs

/-- The capacities: 64 items in the pool and 16 in a channel's queue (R69), 48 entries in the calendar (R103), 8 in the
Priority List (R123). -/
def State.WithinCapacity (s : State) : Prop :=
  s.telex.length ≤ poolLimit ∧ (∀ c, (s.queue c).length ≤ queueLimit)
    ∧ s.calendar.length ≤ calendarLimit ∧ s.priority.length ≤ priorityLimit

/-- No channel's fault count exceeds 3 (R150). -/
def State.FaultsInRange (s : State) : Prop := ∀ c, (s.chan c).line.faults ≤ 3

/-- Host memory is in canonical form. -/
def State.MemoryCanonical (s : State) : Prop := Mem.wf s.mem = true

/-- Once RUN has been set the bases are closed (R165). -/
def State.BasesClosedWhileRunning (s : State) : Prop := s.rack.run = true → s.rack.basesOpen = false

/-- No slot is held by two items or entries: the items of the pool, the calendar and the Priority List all come from
different slots (R164: the part holds a slot once; R173: a second docket there is not taken). -/
def State.HoldsOnce (s : State) : Prop :=
  (s.telex.map TelexItem.slot ++ s.calendar.map CalEntry.slot ++ s.priority.map PrioEntry.slot).Nodup

/-- The slots that a channel holds: a pending HOLD, a retune in progress and a pending RETUNE (R164). -/
def Channel.requestSlots (ch : Channel) : List Nat :=
  ch.pendingHold.toList ++ ch.retune.toList ++ (ch.pendingRetune.map Prod.fst).toList

/-- Every slot the part holds, once for each thing that holds it (R164): the items of the pool, the calendar and the
Priority List, the control requests of the channels, the COMMIT in progress, and the answers of the backlog. -/
def State.heldSlots (s : State) : List Nat :=
  s.telex.map TelexItem.slot ++ s.calendar.map CalEntry.slot ++ s.priority.map PrioEntry.slot
    ++ Chan.all.flatMap (fun c => (s.chan c).requestSlots) ++ (s.store.commit.map Commit.slot).toList
    ++ s.rack.backlog.map Answer.slot

/-- A COMMIT in progress is at most 250 ms old (R184: the write ends 1 to 250 ms after it began). -/
def State.CommitInTime (s : State) : Prop := ∀ k, s.store.commit = some k → k.elapsed ≤ commitLimit

/-- The invariants of the part together. -/
structure State.Sound (s : State) : Prop where
  clock : s.ClockInRange
  mem : s.MemoryCanonical
  capacity : s.WithinCapacity
  faults : s.FaultsInRange
  bases : s.BasesClosedWhileRunning
  once : s.HoldsOnce
  commit : s.CommitInTime

/-! ## Images -/

/-- Every number of a channel's settings lies in its range (chapter 11.2). -/
def ChanSettings.InRange (k : ChanSettings) : Prop :=
  10 ≤ k.period ∧ k.period ≤ 300 ∧ k.lead ≤ 5000 ∧ k.hang ≤ 30000 ∧ k.startPreset ≤ 31

/-- Every number and mask of a series' settings lies in its range (chapter 11.2). -/
def Series.InRange (k : Series) : Prop := k.guardSeconds ≤ 120 ∧ k.allowed.toNat < 64

/-- Every field of an image lies in its range, and its strings have their lengths (chapter 11.2). -/
structure Image.InRange (img : Image) : Prop where
  sweepInterval : 5 ≤ img.sweepInterval ∧ img.sweepInterval ≤ 200
  alarmDelay : 1 ≤ img.alarmDelay ∧ img.alarmDelay ≤ 50
  callAttempts : 1 ≤ img.callAttempts ∧ img.callAttempts ≤ 5
  recoveryDelay : 10 ≤ img.recoveryDelay ∧ img.recoveryDelay ≤ 500
  quietSeconds : 1 ≤ img.quietSeconds ∧ img.quietSeconds ≤ 60
  retuneSeconds : 5 ≤ img.retuneSeconds ∧ img.retuneSeconds ≤ 120
  answerbackSeconds : 2 ≤ img.answerbackSeconds ∧ img.answerbackSeconds ≤ 30
  starvationSeconds : 1 ≤ img.starvationSeconds ∧ img.starvationSeconds ≤ 60
  urgentMinutes : 1 ≤ img.urgentMinutes ∧ img.urgentMinutes ≤ 120
  attentionMask : img.attentionMask.toNat < 1024
  notices : img.cutLength ≤ 32 ∧ img.resumeLength ≤ 32 ∧ img.signoffLength ≤ 32
  key : img.key.length = 8
  codes : img.cutCodes.length = 32 ∧ img.resumeCodes.length = 32 ∧ img.signoffCodes.length = 32
  chan : ∀ c, (img.chan.get c).InRange
  count : img.series.length = 16
  series : ∀ k ∈ img.series, k.InRange

/-! ## Docket commands -/

/-- The docket command of a kind that names a slot and comes with a bus. -/
def docketCommand (kind : Option Kind) (slot : Nat) (bus : Bus) : Instr :=
  match kind with
  | some .telex => .telex slot bus
  | some .bulletin => .bulletin slot bus
  | some .urgent => .urgent slot bus
  | some .distress => .distress slot bus
  | some .withdraw => .withdraw slot bus
  | some .hold => .hold slot bus
  | some .release => .release slot bus
  | some .retune => .retune slot bus
  | some .clearfault => .clearfault slot bus
  | some .quieten => .quieten slot bus
  | some .setclock => .setclock slot bus
  | some .snapshot => .snapshot slot bus
  | some .setup => .setup slot bus
  | some .setupExit => .setupExit slot bus
  | some .settingsRead => .settingsRead slot bus
  | some .settingsWrite => .settingsWrite slot bus
  | some .commit => .commit slot bus
  | none => .badKind slot bus

/-- The card has power, and the intake pass of the sweep in progress hands over next the docket of a slot and kind;
`u` is the state at the handover (R171). -/
def State.Hands (s : State) (bus : Bus) (slot : Nat) (kind : Option Kind) (u : State) : Prop :=
  s.power = true ∧ (s.hostStores bus).handedOver bus slot kind = some u

/-- The answer an owner makes at intake in a state (R5, R168, R171). -/
def State.intakeAnswer (s : State) (slot : Nat) (result : Result) (reason : Option Reason) (progress : Progress) :
    Answer :=
  { slot := slot, result := result, reason := reason, time := s.stamp.1, noclock := s.stamp.2, progress := progress
    expected := .filed, seq := some s.rack.seq, walk := false }

/-- The answer of a docket that was taken, made in a state (R5, R168). -/
def State.takenAnswer (s : State) (slot : Nat) (result : Result) (progress : Progress) (walk : Bool) : Answer :=
  { slot := slot, result := result, reason := none, time := s.stamp.1, noclock := s.stamp.2, progress := progress
    expected := .taken, seq := none, walk := walk }

/-- A state with an answer made at intake: it stands at the end of the backlog, and the filing sequence counter has
advanced (R171). -/
def State.answeredAtIntake (s : State) (slot : Nat) (result : Result) (reason : Option Reason) (progress : Progress) :
    State :=
  { s with rack := { s.rack with
      backlog := s.rack.backlog ++ [s.intakeAnswer slot result reason progress], seq := nextSeq s.rack.seq } }

/-! ## Host memory by what lies there -/

/-- An address holds the state byte of a page block: it lies 256·n bytes from PAGE BASE (chapter 8.1). -/
def State.pageStateAddress (s : State) (a : Nat) : Prop := ∃ n, a = busAddress s.rack.pageBase (pageOffset n)

/-! ## The commands of one channel -/

/-- A command of the channels, their timers and lines, or of the clock's arrivals and limits, with its bus, or with a bus
that brings nothing where the command takes none: it makes no access to the rack. -/
def Instr.channelBus : Instr → Option Bus
  | .startTimeExpiry bus => some bus
  | .latestStartPassed _ bus => some bus
  | .urgentLimitPassed _ => some noBus
  | .characterBoundary _ bus => some bus
  | .keyUpLeadExpiry _ bus => some bus
  | .hangExpiry _ bus => some bus
  | .answerbackTimeout _ bus => some bus
  | .closingCheckTimeout _ bus => some bus
  | .rxdCodeArrival _ _ bus => some bus
  | .tuneStrobeExpiry _ => some noBus
  | .retuneLimitExpiry _ => some noBus
  | .lookaheadWaitThreshold _ => some noBus
  | .starvationExpiry _ => some noBus
  | .pageRereadTimerExpiry _ => some noBus
  | .lineCheck _ _ _ _ bus => some bus
  | .quietPeriodExpiry _ bus => some bus
  | .telexPageRead _ bus => some bus
  | .bulletinPageRead _ bus => some bus
  | .markingWalkEnd _ bus => some bus
  | _ => none

end Sys2Proof.Machine
end

