-- ==== Sys2Proof/Certificates/Slice0/Obligations.lean ====
section
/-! DEFINITION. The statements about the model, for the provers. -/

open Sys2Proof Sys2Proof.Machine

/-! ## The queue of commands -/

/-- A command at the front of the queue is what a step carries out, on the state with the rest of the queue; with none
waiting the part idles, which is the model's own choice (notes/assumptions/12.md). -/
def Obligations.StepRunsFrontCommand : Prop :=
  (∀ (i : Instr) (rest : List Instr) (s : State), s.pending = i :: rest → step s = exec i { s with pending := rest })
    ∧ ∀ s : State, s.pending = [] → step s = .next s

/-! ## The register window -/

/-- STATUS_WRITE and MASK_WRITE (R166, R4; chapter 10.2, Registers): a 1 clears an event flag and a 0 leaves it, and
NOCLOCK ignores the write; the ten enables take the written bits, and the bits not named read 0; ATTN is asserted while
a raw flag is set whose enable is set, and follows either write. RACK_BASE_WRITE and PAGE_BASE_WRITE (R165, Bases):
taken while the bases-open mark is set, ignored while it is clear. -/
def Obligations.RegisterWritesTakeEffect : Prop :=
  ∀ (value : Word) (s : State), s.power = true →
    (∃ t, exec (.statusWrite value) s = .next t
      ∧ (∀ f : Flag, f ≠ .noClock →
          t.status.getLsbD f.bit = (s.status.getLsbD f.bit && !value.getLsbD f.bit))
      ∧ (s.rack.events.getLsbD Flag.noClock.bit = false →
          t.status.getLsbD Flag.noClock.bit = s.status.getLsbD Flag.noClock.bit)
      ∧ (t.attn = true ↔ ∃ k, t.status.getLsbD k = true ∧ s.rack.mask.getLsbD k = true)
      ∧ { t with rack := { t.rack with events := s.rack.events } } = s)
    ∧ (∃ t, exec (.maskWrite value) s = .next t
      ∧ (∀ k, t.rack.mask.getLsbD k = (decide (k < 10) && value.getLsbD k))
      ∧ (t.attn = true ↔ ∃ k, k < 10 ∧ s.status.getLsbD k = true ∧ value.getLsbD k = true)
      ∧ t.status = s.status
      ∧ { t with rack := { t.rack with mask := s.rack.mask } } = s)
    ∧ (s.rack.basesOpen = true →
      exec (.rackBaseWrite value) s = .next { s with rack := { s.rack with rackBase := value } }
        ∧ exec (.pageBaseWrite value) s = .next { s with rack := { s.rack with pageBase := value } })
    ∧ (s.rack.basesOpen = false → exec (.rackBaseWrite value) s = .next s ∧ exec (.pageBaseWrite value) s = .next s)

/-- SET_RUN (R165): RUN from clear to set closes the bases; with no sweep in progress a sweep starts at once, and with
one in progress the latch is set. A write of the value RUN holds changes nothing of it; where RUN is set, the SWEEP bit
of such a write requests a sweep, as SWEEP does: one starts, or the latch is set while one is in progress (R167).
CLEAR_RUN (R175): the sweep timer is stopped and the latch cleared, and nothing else changes: a sweep in progress goes
on, and the bases and the other blocks are as they were; with RUN clear it changes nothing. -/
def Obligations.RunBitStartsAndStopsSweeping : Prop :=
  ∀ (sweep : Bool) (bus : Bus) (s : State), s.power = true → bus.writes = [] →
    (s.rack.run = false → s.rack.sweep = none → ∃ t, exec (.setRun sweep bus) s = .next t
      ∧ t.rack.run = true ∧ t.rack.basesOpen = false ∧ t.rack.sweep = some 0 ∧ t.rack.sweepTimer = none
      ∧ t.rack.latch = false ∧ t.rack.sweepCount = (s.rack.sweepCount + 1) % 65536
      ∧ t.clock = s.clock ∧ t.store = s.store ∧ t.chans = s.chans ∧ t.power = true)
    ∧ (s.rack.run = false → s.rack.sweep.isSome = true → exec (.setRun sweep bus) s =
      .next { s with rack := { s.rack with run := true, basesOpen := false, latch := true } })
    ∧ (s.rack.run = true → exec (.setRun false bus) s = .next s)
    ∧ (s.rack.run = true → s.rack.sweep = none → ∃ t, exec (.setRun true bus) s = .next t
      ∧ exec (.sweep bus) s = .next t
      ∧ t.rack.run = true ∧ t.rack.basesOpen = s.rack.basesOpen ∧ t.rack.sweep = some 0 ∧ t.rack.sweepTimer = none
      ∧ t.rack.latch = false ∧ t.rack.sweepCount = (s.rack.sweepCount + 1) % 65536
      ∧ t.clock = s.clock ∧ t.store = s.store ∧ t.chans = s.chans ∧ t.power = true)
    ∧ (s.rack.run = true → s.rack.sweep.isSome = true → exec (.setRun true bus) s =
      .next { s with rack := { s.rack with latch := true } })
    ∧ (s.rack.run = true → exec .clearRun s =
      .next { s with rack := { s.rack with run := false, sweepTimer := none, latch := false } })
    ∧ (s.rack.run = false → exec .clearRun s = .next s)

/-- SWEEP, SWEEP_TIMER_EXPIRY and SWEEP_END (R165, R167): a request while RUN is clear is ignored, during a sweep it
sets the latch, and otherwise a sweep starts; the timer's expiry starts one too; with no docket left to hand over the
sweep ends, and the next starts in the same event if the latch is set, and otherwise the timer is started with the
sweep interval if RUN is set. That a sweep's visits of slots with nothing to hand over are made by the command that
ends it is the model's choice (notes/assumptions/24.md). -/
def Obligations.SweepsStartLatchAndEnd : Prop :=
  ∀ (bus : Bus) (s : State), s.power = true → bus.writes = [] →
    (s.rack.run = false → exec (.sweep bus) s = .next s)
    ∧ (s.rack.run = true → s.rack.sweep.isSome = true →
      exec (.sweep bus) s = .next { s with rack := { s.rack with latch := true } })
    ∧ (s.rack.run = true → s.rack.sweep = none → ∃ t, exec (.sweep bus) s = .next t
      ∧ t.rack.sweep = some 0 ∧ t.rack.sweepTimer = none ∧ t.rack.latch = false
      ∧ t.rack.sweepCount = (s.rack.sweepCount + 1) % 65536 ∧ t.rack.held = 0
      ∧ (s.rack.sweepTimer = some 0 → exec (.sweepTimerExpiry bus) s = .next t))
    ∧ ∀ cursor u, s.rack.sweep = some cursor → scanFrom bus cursor s = (u, none) →
      (s.rack.run = true → s.rack.latch = false → exec (.sweepEnd bus) s =
        .next { u with rack := { u.rack with sweep := none, sweepTimer := some s.store.working.sweepInterval } })
      ∧ (s.rack.run = false → exec (.sweepEnd bus) s = .next { u with rack := { u.rack with sweep := none } })
      ∧ (s.rack.run = true → s.rack.latch = true → ∃ t, exec (.sweepEnd bus) s = .next t
        ∧ t.rack.sweep = some 0 ∧ t.rack.latch = false ∧ t.rack.sweepCount = (s.rack.sweepCount + 1) % 65536)

/-- The start of a sweep (R168, R170), where the abandonment set is empty and no intake write is pending: the answers at
the front of the backlog that wait for no walk are written into their slots, the state ANSWERED with each, ANSWER is
raised and answers posted counts them; posting stops at the first answer that waits for its walk; and the header, read
back byte by byte, holds the epoch, the answers posted by then, this sweep counted, the held count, the clock and the
setup flag. Where the part holds no item or entry of the slot any more, as it holds none once it has answered it, the
progress fields that the answer carries stand in the slot by the layout of its kind, and every other byte of the slot is
as it was, those of the filing sequence too where the answer carries none. A slot with no answer posted, of which no
record is marked changed, is as it was in every byte, and so is the rest of the header and all of host memory outside
the rack; the channels, the clock and the store do not change. That all of this is made in one step is the model's
choice (notes/assumptions/24.md). -/
def Obligations.SweepPostsAnswersAndHeader : Prop :=
  ∀ (front rest : List Answer) (s : State), s.power = true → s.MemoryCanonical → s.rack.run = true →
    s.rack.sweep = none → s.rack.abandon = [] → s.rack.pendingTakes = [] → s.rack.backlog = front ++ rest →
    (∀ a ∈ front, a.walk = false ∧ a.slot < 128) → (front.map Answer.slot).Nodup →
    (∀ a, rest.head? = some a → a.walk = true) →
    let carries (p : Progress) (k : Nat) : Bool :=
      match p with
      | .none => false
      | .telex .. => decide (68 ≤ k ∧ k < 78)
      | .bulletin .. => decide (48 ≤ k ∧ k < 55) || decide (56 ≤ k ∧ k < 62)
      | .priority _ => decide (48 ≤ k ∧ k < 54)
      | .snapshot _ => decide (48 ≤ k ∧ k < 96 ∧ k % 8 < 6)
      | .clamped _ => decide (48 ≤ k ∧ k < 50)
    ∃ t, exec (.sweep noBus) s = .next t ∧ t.rack.backlog = rest
      ∧ (front = [] → t.rack.posted = s.rack.posted)
      ∧ (front ≠ [] → t.rack.posted = (s.rack.posted + front.length) % 65536
          ∧ t.rack.events.getLsbD Flag.answer.bit = true)
      ∧ (∀ a ∈ front, t.slotState a.slot = 3 ∧ t.slotBytes a.slot 2 2 = [a.result.code, reasonCode a.reason]
          ∧ t.slotBytes a.slot 12 5 = leBytes 4 a.time ++ [indication a.noclock]
          ∧ ∀ n, a.seq = some n → t.slotBytes a.slot 8 4 = leBytes 4 n)
      ∧ (∀ a ∈ front, s.telexAt a.slot = none → s.entryAt a.slot = none → s.prioAt a.slot = none →
          (∀ k < 128, k = 1 ∨ (4 ≤ k ∧ k < 8) ∨ (8 ≤ k ∧ k < 12 ∧ a.seq = none)
              ∨ (17 ≤ k ∧ carries a.progress k = false) → t.slotBytes a.slot k 1 = s.slotBytes a.slot k 1)
          ∧ (∀ sent offset cuts attempts, a.progress = .telex sent offset cuts attempts → t.slotBytes a.slot 68 10 =
              leBytes 4 sent ++ leBytes 4 offset ++ leBytes 1 cuts ++ leBytes 1 attempts)
          ∧ (∀ done last count, a.progress = .bulletin done last count →
              t.slotBytes a.slot 48 7 = BitVec.ofNat 8 done :: Chan.all.map (fun c => (last.get c).code)
              ∧ t.slotBytes a.slot 56 6 = Chan.all.map (fun c => BitVec.ofNat 8 (count.get c)))
          ∧ (∀ out, a.progress = .priority out →
              t.slotBytes a.slot 48 6 = Chan.all.map (fun c => (out.get c).code))
          ∧ (∀ views c, a.progress = .snapshot views → t.slotBytes a.slot (48 + 8 * c.index) 6 =
              [(views.get c).state.code, BitVec.ofNat 8 (views.get c).preset, BitVec.ofNat 8 (views.get c).faults,
               (views.get c).lastKind.code, BitVec.ofNat 8 (views.get c).queued,
               match (views.get c).onAir with
               | some slot => BitVec.ofNat 8 slot
               | none => 255])
          ∧ (∀ n, a.progress = .clamped n → t.slotBytes a.slot 48 2 = leBytes 2 n))
      ∧ t.readBytes s.rack.rackBase 0 14 =
          leBytes 2 s.rack.epoch ++ leBytes 2 t.rack.posted ++ leBytes 2 ((s.rack.sweepCount + 1) % 65536)
            ++ leBytes 2 s.rack.held ++ leBytes 4 s.clock.value ++ [boolCode s.clock.isSet, boolCode s.store.setup]
      ∧ (∀ slot < 128, (∀ a ∈ front, a.slot ≠ slot) → (∀ i, s.telexAt slot = some i → i.changed = false) →
          (∀ e, s.entryAt slot = some e → e.changed = false) → (∀ p, s.prioAt slot = some p → p.changed = false) →
          ∀ k < 128, t.slotBytes slot k 1 = s.slotBytes slot k 1)
      ∧ (∀ k < 64, 14 ≤ k → t.readBytes s.rack.rackBase k 1 = s.readBytes s.rack.rackBase k 1)
      ∧ (∀ a, (∀ k < 16448, a ≠ busAddress s.rack.rackBase k) → Mem.read t.mem a = Mem.read s.mem a)
      ∧ t.chans = s.chans ∧ t.clock = s.clock ∧ t.store = s.store

/-- The progress written by a sweep that has no answer to post (R169, R77, R121, R136): the record of a slot whose
progress changed mark is set has its fields written whole into the slot and its mark cleared, a telex item before a
calendar entry before an entry of the Priority List where a slot had several; with the mark clear no byte of the slot
changes, and no byte of a slot that has no record at all. That all of this is made in one step is the model's choice
(notes/assumptions/24.md). -/
def Obligations.SweepWritesChangedProgress : Prop :=
  ∀ (slot : Nat) (s : State), s.power = true → s.MemoryCanonical → s.rack.run = true → s.rack.sweep = none →
    s.rack.abandon = [] → s.rack.pendingTakes = [] → s.rack.backlog = [] → slot < 128 →
    ∃ t, exec (.sweep noBus) s = .next t
      ∧ (∀ i, s.telexAt slot = some i → t.telexAt slot = some { i with changed := false }
          ∧ (i.changed = true → t.slotBytes slot 68 10 =
              leBytes 4 i.sent ++ leBytes 4 i.offset ++ leBytes 1 i.cuts ++ leBytes 1 i.attempts)
          ∧ (i.changed = false → ∀ k < 128, t.slotBytes slot k 1 = s.slotBytes slot k 1))
      ∧ (∀ e, s.telexAt slot = none → s.entryAt slot = some e → t.entryAt slot = some { e with changed := false }
          ∧ (e.changed = true →
              t.slotBytes slot 48 7 = BitVec.ofNat 8 e.done :: Chan.all.map (fun c => (e.last.get c).code)
              ∧ t.slotBytes slot 56 6 = Chan.all.map (fun c => BitVec.ofNat 8 (e.sentCount.get c)))
          ∧ (e.changed = false → ∀ k < 128, t.slotBytes slot k 1 = s.slotBytes slot k 1))
      ∧ (∀ e, s.telexAt slot = none → s.entryAt slot = none → s.prioAt slot = some e →
          t.prioAt slot = some { e with changed := false }
          ∧ (e.changed = true → t.slotBytes slot 48 6 = Chan.all.map (fun c => (e.out.get c).code))
          ∧ (e.changed = false → ∀ k < 128, t.slotBytes slot k 1 = s.slotBytes slot k 1))
      ∧ (s.telexAt slot = none → s.entryAt slot = none → s.prioAt slot = none →
          ∀ k < 128, t.slotBytes slot k 1 = s.slotBytes slot k 1)

/-- Where a sweep departs from its plain course (R173, R174, R176). The abandonment pass answers each TAKEN slot of its
set ABANDONED and empties the set. A pending intake write is made again before any answer is posted, so that the answer
of its slot finds it TAKEN and is posted with no RACKERR of its own. An answer whose
slot departs from its expected state is written all the same, with RACKERR; one whose access ends in a bus error stays
at the front, its slot's state as it was, with BUSERR; progress whose write ends in one keeps its mark; a header that
does lets the sweep go on. At the last visit a FILED slot that the part holds is left with RACKERR, and one whose read
ends in a bus error with BUSERR. That a sweep's steps are made in one command is the model's choice
(notes/assumptions/24.md). -/
def Obligations.SweepMeetsViolationsErrorsAndReset : Prop :=
  (∀ s : State, s.power = true → s.MemoryCanonical → s.rack.run = true → s.rack.sweep = none →
    s.rack.pendingTakes = [] → s.rack.backlog = [] → s.rack.abandon.Nodup → (∀ k ∈ s.rack.abandon, k < 128) →
    ∃ t, exec (.sweep noBus) s = .next t ∧ t.rack.abandon = [] ∧ t.rack.sweep = some 0
      ∧ (∀ k ∈ s.rack.abandon, s.slotState k = 2 → t.slotState k = 3 ∧ t.slotBytes k 2 2 = [12, 0]
          ∧ t.slotBytes k 12 5 = leBytes 4 s.stamp.1 ++ [indication s.stamp.2])
      ∧ (∀ k ∈ s.rack.abandon, s.slotState k ≠ 2 → t.slotState k = s.slotState k)
      ∧ t.rack.posted % 65536 =
          (s.rack.posted + (s.rack.abandon.filter (fun k => s.slotState k = 2)).length) % 65536
      ∧ ((∃ k ∈ s.rack.abandon, s.slotState k = 2) → t.rack.events.getLsbD Flag.answer.bit = true))
  ∧ (∀ (slot seq : Nat) (s : State), s.power = true → s.MemoryCanonical → s.rack.run = true → s.rack.sweep = none →
    s.rack.abandon = [] → s.rack.pendingTakes = [(slot, seq)] → slot < 128 →
    (s.rack.backlog = [] → ∃ t, exec (.sweep noBus) s = .next t ∧ t.rack.pendingTakes = [] ∧ t.slotState slot = 2
      ∧ t.slotBytes slot 8 4 = leBytes 4 seq)
    ∧ (∀ a, s.rack.backlog = [a] → a.slot = slot → a.expected = .taken → a.walk = false → a.seq = none →
      ∃ t, exec (.sweep noBus) s = .next t ∧ t.rack.pendingTakes = [] ∧ t.rack.backlog = [] ∧ t.slotState slot = 3
        ∧ t.slotBytes slot 8 4 = leBytes 4 seq ∧ t.rack.posted % 65536 = (s.rack.posted + 1) % 65536
        ∧ t.rack.events.getLsbD Flag.rackErr.bit = s.rack.events.getLsbD Flag.rackErr.bit))
  ∧ (∀ (a : Answer) (rest : List Answer) (bus : Bus) (s : State), s.power = true → s.MemoryCanonical →
    bus.writes = [] → s.rack.run = true → s.rack.sweep = none → s.rack.abandon = [] → s.rack.pendingTakes = [] →
    s.rack.backlog = a :: rest → a.walk = false → a.slot < 128 → ∃ t, exec (.sweep bus) s = .next t
      ∧ (bus.errors = [] → s.slotState a.slot ≠ (if a.expected = .taken then 2 else 1) →
          (∀ b, rest.head? = some b → b.walk = true) →
          t.slotState a.slot = 3 ∧ t.rack.events.getLsbD Flag.rackErr.bit = true)
      ∧ (Access.post a.slot ∈ bus.errors ∨ (∃ n, Access.answer a.slot n ∈ bus.errors) →
          t.rack.backlog = s.rack.backlog ∧ t.rack.posted = s.rack.posted
            ∧ t.slotState a.slot = s.slotState a.slot ∧ t.rack.events.getLsbD Flag.busErr.bit = true))
  ∧ (∀ (i : TelexItem) (n : Nat) (bus : Bus) (s : State), s.power = true → bus.writes = [] → s.rack.run = true →
    s.rack.sweep = none → ∃ t, exec (.sweep bus) s = .next t
      ∧ (s.telexAt i.slot = some i → i.changed = true → i.slot < 128 → Access.progress i.slot n ∈ bus.errors →
          t.telexAt i.slot = some i ∧ t.rack.events.getLsbD Flag.busErr.bit = true)
      ∧ (Access.header n ∈ bus.errors → t.rack.sweep = some 0 ∧ t.rack.events.getLsbD Flag.busErr.bit = true))
  ∧ (∀ (bus : Bus) (s : State), s.power = true → bus.writes = [] → s.rack.run = false → s.rack.sweep = some 127 →
    s.rack.abandon = [] →
    (bus.errors = [] → s.slotState 127 = 1 → s.holdsSlot 127 = true → s.pendingTake 127 = none →
      (∀ a ∈ s.rack.backlog, a.slot = 127 → a.expected = .taken) → exec (.sweepEnd bus) s =
        .next { s with rack := { s.rack with sweep := none, events := s.rack.events ||| Flag.rackErr.word } })
    ∧ (Access.visit 127 ∈ bus.errors → exec (.sweepEnd bus) s =
        .next { s with rack := { s.rack with sweep := none, events := s.rack.events ||| Flag.busErr.word } }))

/-! ## Power and resets -/

/-- POWER_ON (R3, R42, R44, R177, R178): the clock is NOT_SET at 0, RUN is clear and the bases open at 0, the counters
start over, the queues and lists are empty, and each enabled channel begins its start-up retune with no fault counted.
From no power (R179), a stored image with a good checksum is in force, and with a bad one the factory defaults are, and
NVERR is raised. POWER_LOSS (R184): the card holds nothing but its stored image; one that a COMMIT was writing is left
with a bad checksum. What the queues and the backlog of a card without power read is the model's choice
(notes/assumptions/17.md, 25.md). -/
def Obligations.PowerOnAndLoss : Prop :=
  (∀ s : State, ∃ t, exec .powerOn s = .next t
    ∧ t.power = true ∧ t.clock.value = 0 ∧ t.clock.isSet = false
    ∧ t.rack.run = false ∧ t.rack.basesOpen = true ∧ t.rack.rackBase = 0 ∧ t.rack.pageBase = 0
    ∧ t.rack.epoch = 1 ∧ t.rack.seq = 1 ∧ t.rack.sweepCount = 0 ∧ t.rack.posted = 0 ∧ t.rack.backlog = []
    ∧ t.rack.mask = t.store.working.attentionMask
    ∧ t.telex = [] ∧ t.calendar = [] ∧ t.priority = [] ∧ t.store.setup = false
    ∧ (∀ c, (t.chan c).line.faults = 0 ∧ (t.chan c).line.lastKind = .none ∧ (t.chan c).onAir = none
        ∧ (t.chan c).preset = (t.store.working.chan.get c).startPreset
        ∧ ((t.store.working.chan.get c).enabled = false → (t.chan c).state = .off)
        ∧ ((t.store.working.chan.get c).enabled = true → (t.chan c).state = .retuning ∧ (t.chan c).strobe = some 10
            ∧ (t.chan c).retuneLimit = some (t.store.working.retuneSeconds * 1000)))
    ∧ (s.power = false → s.store.commit = none → t.store.stored = s.store.stored
      ∧ (s.store.stored.checksum = s.store.stored.image.checksum →
          t.store.working = s.store.stored.image ∧ t.rack.events = 0
            ∧ t.store.protection = s.store.stored.image.protection ∧ t.store.key = s.store.stored.image.key)
      ∧ (s.store.stored.checksum ≠ s.store.stored.image.checksum →
          t.store.working = Image.factory ∧ t.rack.events = Flag.nvErr.word ∧ t.store.protection = .openLevel)))
  ∧ ∀ s : State, s.power = true → ∃ t, exec .powerLoss s = .next t ∧ t.power = false
    ∧ t.telex = [] ∧ t.calendar = [] ∧ t.priority = [] ∧ t.rack.backlog = [] ∧ t.store.commit = none
    ∧ (s.store.commit = none → t.store.stored = s.store.stored)
    ∧ (s.store.commit.isSome = true → t.store.stored.checksum ≠ t.store.stored.image.checksum)

/-- CONTROL_RESET and the change of RESET_INPUT from absent to present (R165, R3, R44, R163, R177): one part reset. The
clock runs on, the fault counts, last fault kinds and presets are kept, the epoch moves on, RUN is clear with the bases
open, every item and answer is gone, and each channel takes the state of R44. The input staying present, or going
absent, has no effect but its level; while a COMMIT is in progress the part reset, asked for in either way, waits for its
completion (R165, R184). -/
def Obligations.PartResetEmptiesAndKeeps : Prop :=
  (∀ s : State, (s.resetPin = true → exec (.resetInput true) s = .next s)
    ∧ exec (.resetInput false) s = .next { s with resetPin := false }
    ∧ (s.power = true → s.store.commit.isSome = true → ∀ run sweep,
        exec (.controlReset run sweep) s = .next { s with store := { s.store with resetWaits := true } })
    ∧ (s.power = true → s.store.commit.isSome = true → s.resetPin = false →
        exec (.resetInput true) s =
          .next { s with resetPin := true, store := { s.store with resetWaits := true } }))
  ∧ ∀ s : State, s.power = true → s.store.commit = none → s.resetPin = false → ∃ t,
    (∀ run sweep, exec (.controlReset run sweep) s = .next t)
    ∧ exec (.resetInput true) s = .next { t with resetPin := true }
    ∧ t.clock = s.clock ∧ t.power = true ∧ t.store.stored = s.store.stored ∧ t.store.setup = false
    ∧ t.telex = [] ∧ t.calendar = [] ∧ t.priority = [] ∧ t.rack.backlog = [] ∧ t.rack.run = false
    ∧ t.rack.basesOpen = true ∧ t.rack.mask = t.store.working.attentionMask
    ∧ t.rack.epoch = (if s.rack.epoch = 65535 then 1 else s.rack.epoch + 1)
    ∧ t.rack.abandon = List.range 128
    ∧ ∀ c, (t.chan c).line.faults = (s.chan c).line.faults ∧ (t.chan c).line.lastKind = (s.chan c).line.lastKind
        ∧ (t.chan c).preset = (s.chan c).preset ∧ (t.chan c).onAir = none ∧ (t.chan c).tx = none
        ∧ (t.chan c).state = (if (s.chan c).line.faults = 3 then .lockedOut
            else if (t.store.working.chan.get c).enabled = false then .off
            else if (s.chan c).state = .faulted then .faulted else .idle)

/-- COMMIT_COMPLETION (R184): success makes the copy the stored image with a good checksum, with its protection and key
in force, and answers DONE; failure answers FAILED, raises NVERR and leaves the checksum bad. A part reset that waited
takes effect in the same event: the answer is lost with it. In the millisecond in which the write began, and with no
COMMIT in progress, nothing completes: the write ends 1 to 250 ms after it began, which the part counts up to 250
(notes/assumptions/1.md, 38.md). -/
def Obligations.CommitCompletionStores : Prop :=
  (∀ (k : Commit) (s : State), s.power = true → s.store.commit = some k → 0 < k.elapsed →
    (s.store.resetWaits = false → ∃ t, exec (.commitCompletion true) s = .next t
      ∧ t.store = { s.store with
          stored := { image := k.copy, checksum := k.copy.checksum }, protection := k.copy.protection
          key := k.copy.key, commit := none }
      ∧ t.rack.backlog = s.rack.backlog ++ [s.takenAnswer k.slot .done .none false]
      ∧ t.rack.events = s.rack.events ∧ t.chans = s.chans ∧ t.mem = s.mem)
    ∧ (s.store.resetWaits = false → ∃ t, exec (.commitCompletion false) s = .next t
      ∧ t.store.stored.checksum ≠ t.store.stored.image.checksum ∧ t.store.working = s.store.working
      ∧ t.store.commit = none ∧ t.rack.events = s.rack.events ||| Flag.nvErr.word
      ∧ t.rack.backlog = s.rack.backlog ++ [s.takenAnswer k.slot .failed .none false] ∧ t.chans = s.chans)
    ∧ (s.store.resetWaits = true → ∀ success, ∃ t, exec (.commitCompletion success) s = .next t
      ∧ t.rack.backlog = [] ∧ t.store.commit = none ∧ t.store.resetWaits = false ∧ t.rack.run = false))
  ∧ ∀ (success : Bool) (s : State), s.power = true → (∀ k, s.store.commit = some k → k.elapsed = 0) →
    exec (.commitCompletion success) s = .next s

/-! ## The clock -/

/-- STATION_CLOCK_TICK (R1, R2, R12, R13, R184): the clock moves 1 ms on and wraps at midnight; every running duration
timer has 1 ms less: of the sweep, and of each channel the character period, the key-up lead, the hang, the retune
limit, the TUNE strobe, the answerback, the page reread, the starvation, the quiet period and the line check. A COMMIT
is 1 ms older, up to 250. The limit of a DUE entry falls while it is above 0, withdrawn or not, and where the entry is
not withdrawn passes at the tick that finds it 0; a DUE entry's elapsed count rises; a WAITING entry whose start time
the clock has reached is marked; an urgent limit falls, or passes at the tick that finds it 0. Nothing that the tick
brings is done by it, and a timer that has run out stays at 0: both are the model's choice (notes/assumptions/11.md,
16.md, 38.md). -/
def Obligations.TickMovesClockAndTimers : Prop :=
  ∀ s : State, s.power = true → ∃ t, exec .stationClockTick s = .next t
    ∧ (s.clock.value < 86399999 → t.clock.value = s.clock.value + 1)
    ∧ (s.clock.value = 86399999 → t.clock.value = 0) ∧ t.clock.isSet = s.clock.isSet
    ∧ t.rack = { s.rack with sweepTimer := s.rack.sweepTimer.map (fun n => n - 1) }
    ∧ t.telex = s.telex ∧ t.mem = s.mem
    ∧ t.store = { s.store with
        commit := s.store.commit.map (fun k => { k with elapsed := if k.elapsed < 250 then k.elapsed + 1 else 250 }) }
    ∧ t.calendar = s.calendar.map (fun e =>
        { e with
          r := if e.phase = some .due ∧ 0 < e.r then e.r - 1 else e.r
          passing := e.passing
            || decide (e.phase = some .due ∧ e.limitPassed = false ∧ e.withdrawn = false ∧ e.r ≤ 0)
          e := if e.phase = some .due then e.e + 1 else e.e
          arrived := e.arrived || decide (e.phase = some .waiting ∧ e.role ≠ .follower ∧ e.withdrawn = false
            ∧ e.start = t.clock.value) })
    ∧ t.priority = s.priority.map (fun e =>
        { e with limit := e.limit.map (fun n => n - 1), passing := e.passing || decide (e.limit = some 0) })
    ∧ ∀ c, (t.chan c).state = (s.chan c).state ∧ (t.chan c).tx = (s.chan c).tx
        ∧ (t.chan c).period = (s.chan c).period.map (fun n => n - 1)
        ∧ (t.chan c).lead = (s.chan c).lead.map (fun n => n - 1)
        ∧ (t.chan c).hang = (s.chan c).hang.map (fun n => n - 1)
        ∧ (t.chan c).retuneLimit = (s.chan c).retuneLimit.map (fun n => n - 1)
        ∧ (t.chan c).strobe = (s.chan c).strobe.map (fun n => n - 1)
        ∧ (t.chan c).call = { (s.chan c).call with timer := (s.chan c).call.timer.map (fun n => n - 1) }
        ∧ (t.chan c).fetch = { (s.chan c).fetch with
            reread := (s.chan c).fetch.reread.map (fun n => n - 1)
            starvation := (s.chan c).fetch.starvation.map (fun n => n - 1) }
        ∧ (t.chan c).line = { (s.chan c).line with
            quiet := (s.chan c).line.quiet.map (fun n => n - 1), check := (s.chan c).line.check.map (fun n => n - 1) }

/-- The forward distance (R10): it is the one number below a day that leads from x to y, and is not symmetric. The
direction of a jump (R7): forward below twelve hours and backward from there; a SETCLOCK to the value the clock holds
is a forward jump over no time that changes no entry. The start time of a repeating entry's next repetition is one
interval on, wrapped round the day. -/
def Obligations.ForwardDistanceAndJumpDirection : Prop :=
  (∀ x y : Nat, x < 86400000 → y < 86400000 →
    forward x y < 86400000 ∧ (x + forward x y) % 86400000 = y
    ∧ (x ≤ y → forward x y = y - x) ∧ (y < x → forward x y = y + 86400000 - x)
    ∧ forward x x = 0 ∧ (x ≠ y → forward x y + forward y x = 86400000))
  ∧ (∀ j : Nat, j ≤ 86399999 → (j < 43200000 → jumpForward j = true) ∧ (43200000 ≤ j → jumpForward j = false))
  ∧ (∀ (v : Nat) (s : State), v ≤ 86399999 → forward v v = 0 ∧ jumpCalendar v v s = s)
  ∧ ∀ e : CalEntry, (nextRepetition e).start = (e.start + e.interval) % 86400000
      ∧ (nextRepetition e).start < 86400000 ∧ (CalEntry.overMissed 1 e).start = (nextRepetition e).start

/-- START_TIME_EXPIRY (R107, R108, R59): every WAITING entry whose start time the tick has reported becomes DUE with its
whole tolerance and elapsed count 0, and the other entries are left; a channel in the lookahead wait that such an entry
has stopped bounding compares again, and its cut is decided if A is at its threshold now; where every channel is in a
state that takes no pick, no entry is on the air by the end of the event. The offer of an entry that becomes DUE is a
pick trigger (R108, R21): an IDLE channel of its mask, outside setup mode and with nothing to pick before a due
bulletin, takes it in the same event, its outcome ON_AIR, the channel in KEYING with its lead running; a channel in HANG
has its pick made at the next character boundary. The marks arrived and passing are the model's own
(notes/assumptions/16.md). -/
def Obligations.StartTimeMakesEntriesDue : Prop :=
  (∀ (bus : Bus) (s : State), s.power = true → bus.prompt = [] → bus.writes = [] → s.Calm → (∀ c, s.takesNoPick c) →
    (s.calendar.map CalEntry.slot).Nodup →
    let due (e : CalEntry) : Prop :=
      e.arrived = true ∧ e.phase = some .waiting ∧ e.role ≠ .follower ∧ e.withdrawn = false
    ∃ t, exec (.startTimeExpiry bus) s = .next t
      ∧ (∀ e ∈ s.calendar, due e → t.entryAt e.slot = some { e with
          phase := some .due, r := e.tolerance, e := 0, limitPassed := false, arrived := false, passing := false })
      ∧ (∀ e ∈ s.calendar, ¬ due e → t.entryAt e.slot = some e)
      ∧ t.calendar.map CalEntry.slot = s.calendar.map CalEntry.slot
      ∧ (∀ c, (s.chan c).waitOpen = false → t.chan c = s.chan c)
      ∧ (∀ c, (s.chan c).waitOpen = true → (∃ e ∈ s.calendar, due e ∧ inMask e.mask c = true) →
          ((t.chan c).cutDecided = true ↔ ∃ a : Int, t.available c = some a
            ∧ a ≤ (((s.chan c).item.cut.length + 1) * (s.chan c).item.period : Nat)))
      ∧ t.rack = s.rack ∧ t.priority = s.priority ∧ t.telex = s.telex ∧ t.clock = s.clock)
  ∧ ∀ (e : CalEntry) (c : Chan) (bus : Bus) (s : State), s.power = true → bus.prompt = [] → bus.writes = [] → s.Calm →
    (∀ d, d ≠ c → s.takesNoPick d) → (s.calendar.map CalEntry.slot).Nodup →
    let due (e : CalEntry) : Prop :=
      e.arrived = true ∧ e.phase = some .waiting ∧ e.role ≠ .follower ∧ e.withdrawn = false
    e ∈ s.calendar → due e → (∀ x ∈ s.calendar, x ≠ e → ¬ due x) → inMask e.mask c = true → e.out.get c = .pending →
    s.dueEntry c = none → s.NothingBeforeDue c →
    let offered : CalEntry := { e with
      phase := some .due, r := e.tolerance, e := 0, limitPassed := false, arrived := false, passing := false }
    let kept (t : State) : Prop :=
      t.rack = s.rack ∧ t.priority = s.priority ∧ t.telex = s.telex ∧ t.clock = s.clock
      ∧ (∀ d, d ≠ c → (s.chan d).waitOpen = false → t.chan d = s.chan d)
    ((s.chan c).state = .idle → ∃ t, exec (.startTimeExpiry bus) s = .next t ∧ kept t
      ∧ s.KeyedUp t c { kind := .bulletin, slot := e.slot, repetition := e.done + 1, resumed := false }
      ∧ t.entryAt e.slot = some { offered with out := e.out.set c .onAir })
    ∧ ((s.chan c).state = .hang → (s.chan c).waitOpen = false → ∃ t, exec (.startTimeExpiry bus) s = .next t ∧ kept t
      ∧ t.chan c = { s.chan c with pick := .atBoundary } ∧ t.entryAt e.slot = some offered)

/-- LATEST_START_PASSED (R110) of a single entry and URGENT_LIMIT_PASSED (R132) of an urgent bulletin, each with a
transmission still on the air: PENDING outcomes become MISSED, the others stay, the FAILED ones of an urgent bulletin
are final, MISSED is raised if an outcome became MISSED, and nothing settles. The mark passing, that the limit's tick
has come, is the model's own (notes/assumptions/16.md), here and below; that the passing of an urgent limit asks for no
pick on any channel is the model's choice (notes/assumptions/30.md). -/
def Obligations.LimitPassingMissesPending : Prop :=
  (∀ (e : CalEntry) (slot : Nat) (bus : Bus) (s : State), s.power = true → bus.prompt = [] → s.Calm →
    s.entryAt slot = some e → e.slot = slot → e.role = .single → e.phase = some .due → e.limitPassed = false →
    e.withdrawn = false → e.passing = true → (∃ c, inMask e.mask c = true ∧ e.out.get c = .onAir) →
    ∃ t x, exec (.latestStartPassed slot bus) s = .next t ∧ t.entryAt slot = some x
      ∧ x = { e with out := x.out, limitPassed := true, passing := false }
      ∧ (∀ c, x.out.get c = if e.out.get c = .pending then .missed else e.out.get c)
      ∧ ((∃ c, inMask e.mask c = true ∧ e.out.get c = .pending) → t.rack.events = s.rack.events ||| Flag.missed.word)
      ∧ ((¬ ∃ c, inMask e.mask c = true ∧ e.out.get c = .pending) → t.rack.events = s.rack.events)
      ∧ t.chans = s.chans ∧ t.clock = s.clock ∧ t.telex = s.telex ∧ t.rack.backlog = s.rack.backlog)
  ∧ ∀ (e : PrioEntry) (slot : Nat) (s : State), s.power = true → s.prioAt slot = some e → e.slot = slot →
    e.distress = false → e.withdrawn = false → e.limit.isSome = true → e.passing = true →
    (∃ c, e.out.get c = .onAir) →
    ∃ t x, exec (.urgentLimitPassed slot) s = .next t ∧ t.prioAt slot = some x ∧ x.limitPassed = true ∧ x.limit = none
      ∧ (∀ c, x.out.get c = if e.out.get c = .pending then .missed else e.out.get c)
      ∧ (∀ c, e.out.get c = .failed → x.finalOn c = true)
      ∧ ((∃ c, e.out.get c = .pending) → t.rack.events = s.rack.events ||| Flag.missed.word)
      ∧ ((¬ ∃ c, e.out.get c = .pending) → t.rack.events = s.rack.events)
      ∧ t.chans = s.chans ∧ t.calendar = s.calendar ∧ t.telex = s.telex ∧ t.rack.backlog = s.rack.backlog

/-- LATEST_START_PASSED of a single entry with nothing on the air (R110 to R113, R117): the repetition settles. The last
one ends the entry with the result of its tallies, its answer waiting for its marking walk. Before the last, the entry
goes to its next repetition with its outcomes PENDING again; `k` more repetitions are missed by the catch-up rule, as
many as lie further back than the tolerance; it waits for its new start time, or is DUE at once with what is left of its
tolerance; and if every repetition left is missed it ends. Each end has its result exactly: FAILED with none SENT, DONE
with nothing else, PARTLY with some of either. Where the entry comes to wait, each channel of its mask in an open
lookahead wait compares A with (C + 1) × P: at or below it the cut is decided, and the reading and its timers are
dropped (R59). No other channel is touched, where no channel takes a pick. An entry that is DUE again at once is offered
(R108, R112): an IDLE channel of its mask, outside setup mode and with nothing to pick before it, takes the next
repetition in the same event, in KEYING with its lead running, and a channel in HANG has its pick made at the next
character boundary (R21). -/
def Obligations.LatestStartSettlesRepetition : Prop :=
  (∀ (e : CalEntry) (slot : Nat) (bus : Bus) (s : State), s.power = true → bus.prompt = [] → s.Calm →
    (∀ c, s.takesNoPick c) → s.entryAt slot = some e → e.slot = slot → e.role = .single → e.phase = some .due →
    e.limitPassed = false → e.withdrawn = false → e.passing = true →
    (∀ c, inMask e.mask c = true → e.out.get c ≠ .onAir) →
    let sent := e.sentTally + e.tally (fun o => decide (o = .sent))
    let allSent : Prop := e.unsentTally = 0 ∧ ∀ c, inMask e.mask c = true →
      e.out.get c ≠ .failed ∧ e.out.get c ≠ .missed ∧ e.out.get c ≠ .pending
    (e.left ≤ 1 → ∃ t a, exec (.latestStartPassed slot bus) s = .next t ∧ t.entryAt slot = none
      ∧ t.rack.backlog = s.rack.backlog ++ [a] ∧ a.slot = slot ∧ a.walk = true ∧ a.expected = .taken
      ∧ (sent = 0 → a.result = .failed) ∧ (sent ≠ 0 → allSent → a.result = .done)
      ∧ (sent ≠ 0 → ¬ allSent → a.result = .partly)
      ∧ ((t.chan (walkerOf e.mask)).fetch.walks = (s.chan (walkerOf e.mask)).fetch.walks
          ++ [{ slot := slot, page := e.firstPage, limit := 64 }]))
    ∧ (∀ k, k + 1 < e.left → (∀ j < k, (e.tolerance : Int) < (e.e : Int) - (j + 1 : Nat) * e.interval) →
      (e.e : Int) - (k + 1 : Nat) * e.interval ≤ e.tolerance →
      ∃ t x, exec (.latestStartPassed slot bus) s = .next t ∧ t.entryAt slot = some x
        ∧ x.done = e.done + 1 + k ∧ x.left = e.left - 1 - k ∧ x.start = (e.start + (k + 1) * e.interval) % 86400000
        ∧ (∀ c, x.out.get c = if inMask e.mask c then .pending else .notUsed) ∧ x.limitPassed = false
        ∧ (e.e < (k + 1) * e.interval → x.phase = some .waiting)
        ∧ ((k + 1) * e.interval ≤ e.e → x.phase = some .due ∧ x.e = e.e - (k + 1) * e.interval
            ∧ x.r = (e.tolerance : Int) - x.e)
        ∧ (∀ c, x.last.get c = if inMask e.mask c = false then .notUsed
            else if k = 0 then (if e.out.get c = .pending then .missed else e.out.get c) else .missed)
        ∧ (∀ c, x.sentCount.get c =
            e.sentCount.get c + (if inMask e.mask c = true ∧ e.out.get c = .sent then 1 else 0))
        ∧ (k ≠ 0 ∨ (∃ c, inMask e.mask c = true ∧ e.out.get c = .pending) →
            t.rack.events = s.rack.events ||| Flag.missed.word)
        ∧ (∀ c, (s.chan c).follower ≠ some slot →
            inMask e.mask c = false ∨ (k + 1) * e.interval ≤ e.e ∨ (s.chan c).waiting = false → t.chan c = s.chan c)
        ∧ (∀ c rd a, e.e < (k + 1) * e.interval → inMask e.mask c = true → (s.chan c).waiting = true →
            (s.chan c).cutDecided = false → (s.chan c).decided = none → (s.chan c).fetch.reading = some rd →
            rd.condition = .inProgress ∨ rd.condition = .blocked → (s.chan c).follower ≠ some slot →
            t.available c = some a →
            (a ≤ (((s.chan c).item.cut.length + 1) * (s.chan c).item.period : Nat) →
              t.chan c = { s.chan c with cutDecided := true, fetch := { (s.chan c).fetch with
                reading := none, chain := [], reread := none, starvation := none } })
            ∧ ((((s.chan c).item.cut.length + 1) * (s.chan c).item.period : Nat) < a → t.chan c = s.chan c))
        ∧ t.rack.backlog = s.rack.backlog ∧ t.telex = s.telex ∧ t.clock = s.clock)
    ∧ (1 < e.left → (∀ j < e.left - 1, (e.tolerance : Int) < (e.e : Int) - (j + 1 : Nat) * e.interval) →
      ∃ t a last count, exec (.latestStartPassed slot bus) s = .next t ∧ t.entryAt slot = none
        ∧ t.rack.backlog = s.rack.backlog ++ [a] ∧ a.slot = slot ∧ a.walk = true
        ∧ a.progress = .bulletin (e.done + e.left) last count
        ∧ (∀ c, last.get c = if inMask e.mask c then .missed else .notUsed)
        ∧ (sent = 0 → a.result = .failed) ∧ (sent ≠ 0 → (∃ c, inMask e.mask c = true) → a.result = .partly)
        ∧ t.rack.events = s.rack.events ||| Flag.missed.word))
  ∧ ∀ (e : CalEntry) (slot k : Nat) (c : Chan) (bus : Bus) (s : State), s.power = true → bus.prompt = [] → s.Calm →
    (∀ d, d ≠ c → s.takesNoPick d) → (s.calendar.map CalEntry.slot).Nodup → s.entryAt slot = some e → e.slot = slot →
    e.role = .single → e.phase = some .due → e.limitPassed = false → e.withdrawn = false → e.passing = true →
    (∀ d, inMask e.mask d = true → e.out.get d ≠ .onAir) → inMask e.mask c = true →
    (∀ x ∈ s.calendar, x.slot ≠ slot → x.dueOn c = false) → s.NothingBeforeDue c → k + 1 < e.left →
    (∀ j < k, (e.tolerance : Int) < (e.e : Int) - (j + 1 : Nat) * e.interval) → (k + 1) * e.interval ≤ e.e →
    (e.e : Int) - (k + 1 : Nat) * e.interval ≤ e.tolerance →
    let dueAgain (t : State) (x : CalEntry) (onC : ChanOutcome) : Prop :=
      t.entryAt slot = some x ∧ x.phase = some .due ∧ x.e = e.e - (k + 1) * e.interval
      ∧ x.r = (e.tolerance : Int) - x.e ∧ x.done = e.done + 1 + k ∧ x.left = e.left - 1 - k
      ∧ (∀ d, x.out.get d = if d = c then onC else if inMask e.mask d then .pending else .notUsed)
      ∧ t.rack.backlog = s.rack.backlog ∧ t.telex = s.telex ∧ t.clock = s.clock
    ((s.chan c).state = .idle → ∃ t x, exec (.latestStartPassed slot bus) s = .next t ∧ dueAgain t x .onAir
      ∧ s.KeyedUp t c { kind := .bulletin, slot := slot, repetition := e.done + k + 2, resumed := false })
    ∧ ((s.chan c).state = .hang → ∃ t x, exec (.latestStartPassed slot bus) s = .next t ∧ dueAgain t x .pending
      ∧ t.chan c = { s.chan c with pick := .atBoundary })

/-- A pair on a channel (R24, R115, R116). When the leader's last code has been sent its outcome is SENT, and its
follower is on the air in the same event with no lead; here its first page has not come yet, and the idle code is sent.
When the leader's limit passes while it is on the air somewhere, a channel where both are PENDING has both MISSED, and
the limit has passed for both. When the stop key cuts the follower, both outcomes are FAILED on the channel, which is
HELD. When it cuts either of a withdrawn pair (R118, R119) whose last transmission this is, on channels that take no
pick, both end WITHDRAWN in that event, leader first, and both answers show FAILED on the channel, also where the
withdrawal had made the follower's outcome there NOT_USED. That R115 makes both outcomes FAILED in a withdrawn pair too,
over the NOT_USED of R118, is the model's reading of R115 (notes/assumptions/23.md); the mark passing is the model's own
(notes/assumptions/16.md). -/
def Obligations.PairsFollowTheirLeader : Prop :=
  (∀ (l f : CalEntry) (bus : Bus) (s : State), s.power = true → bus.prompt = [] → bus.writes = [] → s.Calm →
    s.entryAt l.slot = some l → s.entryAt f.slot = some f → l.role = .leader → l.partner = some f.slot →
    f.role = .follower → f.partner = some l.slot → l.phase = some .due → l.withdrawn = false → f.withdrawn = false →
    (∀ c a b, (s.chan c).period = some 0 → (s.chan c).state = .sending → (s.chan c).segment = none →
      (s.chan c).onAir = some a → a.kind = .bulletin → a.slot = l.slot → (s.chan c).fetch.body = some b →
      b.complete = true → (s.chan c).tx.map Tx.kind = some .body → s.Undisturbed c → (s.chan c).pendingRetune = none →
      s.store.setup = false → inMask l.mask c = true → f.out.get c = .pending ∨ f.out.get c = .failed →
      ∃ t, exec (.characterBoundary c bus) s = .next t ∧ (t.chan c).state = .sending ∧ (t.chan c).key = true
        ∧ (t.chan c).onAir = some { kind := .bulletin, slot := f.slot, repetition := f.done + 1, resumed := false }
        ∧ (t.chan c).follower = none ∧ (t.chan c).lead = none ∧ (t.chan c).hang = none
        ∧ (t.chan c).tx = some { kind := .idle, code := s.store.working.idle }
        ∧ (t.chan c).pendingHold = (s.chan c).pendingHold
        ∧ t.entryAt l.slot = some { l with out := l.out.set c .sent }
        ∧ t.entryAt f.slot = some { f with out := f.out.set c .onAir }
        ∧ t.rack.backlog = s.rack.backlog ∧ (∀ d, d ≠ c → t.chan d = s.chan d))
    ∧ (l.limitPassed = false → l.passing = true → (∃ c, inMask l.mask c = true ∧ l.out.get c = .onAir) →
      ∃ t x y, exec (.latestStartPassed l.slot bus) s = .next t ∧ t.entryAt l.slot = some x ∧ t.entryAt f.slot = some y
        ∧ x.limitPassed = true ∧ y.limitPassed = true
        ∧ (∀ c, x.out.get c = if l.out.get c = .pending then .missed else l.out.get c)
        ∧ (∀ c, y.out.get c = if l.out.get c = .pending ∧ f.out.get c = .pending then .missed else f.out.get c)
        ∧ t.chans = s.chans ∧ t.rack.backlog = s.rack.backlog)
    ∧ (∀ c a b, (s.chan c).period = some 0 → (s.chan c).state = .sending → (s.chan c).segment = none →
      (s.chan c).onAir = some a → a.kind = .bulletin → a.slot = f.slot → (s.chan c).fetch.body = some b →
      b.complete = false → b.failed = false → (s.chan c).stopAtBoundary = true → (s.chan c).offWaits = false →
      s.pendingRelay c = none → (s.chan c).pendingHold = none → (s.chan c).pendingRetune = none →
      (s.chan c).follower = none → inMask l.mask c = true → l.limitPassed = false → l.out.get c = .sent →
      f.out.get c = .onAir →
      ∃ t, exec (.characterBoundary c bus) s = .next t ∧ (t.chan c).state = .held ∧ (t.chan c).key = false
        ∧ (t.chan c).onAir = none ∧ (t.chan c).tx = none
        ∧ t.entryAt l.slot = some { l with out := l.out.set c .failed }
        ∧ t.entryAt f.slot = some { f with out := f.out.set c .failed }
        ∧ t.rack.backlog = s.rack.backlog ∧ (∀ d, d ≠ c → t.chan d = s.chan d)))
  ∧ ∀ (l f : CalEntry) (c : Chan) (a : OnAir) (b : BodyReading) (bus : Bus) (s : State), s.power = true →
    bus.prompt = [] → bus.writes = [] → s.Calm → s.entryAt l.slot = some l → s.entryAt f.slot = some f →
    l.role = .leader → l.partner = some f.slot → f.role = .follower → f.partner = some l.slot → l.withdrawn = true →
    f.withdrawn = true → f.mask = l.mask → inMask l.mask c = true →
    (∀ d, d ≠ c → l.out.get d ≠ .onAir ∧ f.out.get d ≠ .onAir ∧ s.takesNoPick d) →
    (s.chan c).period = some 0 → (s.chan c).state = .sending → (s.chan c).segment = none → (s.chan c).onAir = some a →
    a.kind = .bulletin → a.slot = l.slot ∨ a.slot = f.slot → (s.chan c).fetch.body = some b → b.complete = false →
    b.failed = false → (s.chan c).stopAtBoundary = true → (s.chan c).offWaits = false → s.pendingRelay c = none →
    (s.chan c).pendingHold = none → (s.chan c).pendingRetune = none → (s.chan c).follower = none →
    let shows (e : CalEntry) (last : Six ChanOutcome) (count : Six Nat) : Prop :=
      ∀ d, last.get d = (if inMask l.mask d then (if d = c then .failed else e.out.get d) else .notUsed)
        ∧ count.get d = e.sentCount.get d + (if inMask l.mask d = true ∧ d ≠ c ∧ e.out.get d = .sent then 1 else 0)
    ∃ t lastL countL lastF countF, exec (.characterBoundary c bus) s = .next t ∧ shows l lastL countL
      ∧ shows f lastF countF ∧ t.calendar = s.calendar.filter (fun x => x.slot != l.slot && x.slot != f.slot)
      ∧ t.rack.backlog = s.rack.backlog ++ [s.takenAnswer l.slot .withdrawn (.bulletin l.done lastL countL) true,
          s.takenAnswer f.slot .withdrawn (.bulletin f.done lastF countF) true]
      ∧ (t.chan (walkerOf l.mask)).fetch.walks = (s.chan (walkerOf l.mask)).fetch.walks
          ++ [{ slot := l.slot, page := l.firstPage, limit := 64 }, { slot := f.slot, page := f.firstPage, limit := 64 }]
      ∧ (t.chan c).state = .held ∧ (t.chan c).key = false ∧ (t.chan c).onAir = none ∧ (t.chan c).tx = none
      ∧ (∀ d, d ≠ c → (t.chan d).state = (s.chan d).state ∧ (t.chan d).tx = (s.chan d).tx
          ∧ (t.chan d).onAir = (s.chan d).onAir)
      ∧ t.mem = s.mem ∧ t.telex = s.telex ∧ t.priority = s.priority

/-- The available time A of a channel and the needs held against it (R11, R49, R54, R58, R59, R62). A is unbounded
exactly when no WAITING entry, not a follower, has the channel PENDING in its mask; otherwise it is the forward
distance to the nearest such start time less the guard of its series, and of equally near ones the larger guard counts.
The need of the start test is U, unless the carrier is up, with (Q + 1) × P + Tab for an item with a call and (R + L +
C or Z) × P; of the continuation test (L + C or Z) × P; of the closing check P + Tab; the threshold of the lookahead
wait (C + 1) × P. A need fits if it is at most A, or A is unbounded. -/
def Obligations.AvailableTimeAndNeeds : Prop :=
  (∀ (c : Chan) (s : State),
    let binds (e : CalEntry) : Prop :=
      e ∈ s.calendar ∧ e.phase = some .waiting ∧ e.role ≠ .follower ∧ inMask e.mask c = true ∧ e.out.get c = .pending
    let distance (e : CalEntry) : Nat := forward s.clock.value e.start
    (s.available c = none ↔ ∀ e, ¬ binds e)
    ∧ ∀ a, s.available c = some a → ∃ e, binds e
        ∧ a = (distance e : Int) - (s.store.working.guardMs e.series : Int)
        ∧ ∀ x, binds x → distance e ≤ distance x
          ∧ (distance x = distance e → s.store.working.guardMs x.series ≤ s.store.working.guardMs e.series))
  ∧ (∀ (img : Image) (c : Chan) (up resumed final : Bool) (item : TelexItem) (len : Nat),
    startNeed img c up item resumed len final =
      (if up = true then 0 else (img.chan.get c).lead)
      + (if item.callCode = [] then 0
         else (item.callCode.length + 1) * (img.chan.get c).period + img.answerbackSeconds * 1000)
      + ((if resumed = true then img.resume.length else 0) + len
          + (if final = true then img.signoff.length else img.cut.length)) * (img.chan.get c).period)
  ∧ (∀ (k : ItemSettings) (img : Image) (len : Nat) (final : Bool),
    continueNeed k len final = (len + (if final = true then k.signoff.length else k.cut.length)) * k.period
      ∧ closingNeed img k = k.period + img.answerbackSeconds * 1000
      ∧ waitThreshold k = (k.cut.length + 1) * k.period)
  ∧ ∀ need : Nat, fits need none = true ∧ ∀ a : Int, fits need (some a) = true ↔ (need : Int) ≤ a

/-! ## The dockets -/

/-- The taking of a docket (R171, R174): the counter's value and then the state TAKEN are written into its slot, and no
other byte of host memory changes; the counter advances from 4,294,967,295 to 1; where the write ends in a bus error
the slot's state is as it was, BUSERR is raised and the write is pending. That addresses wrap at 2^32 is the model's
choice (notes/assumptions/4.md). A docket without room (R69, R103, R124, R37, R184) is held: it stays FILED, the held
count rises, DEFERRED is raised, and the counter does not advance: a telex with the pool or its channel's queue full, a
bulletin with the calendar full, an urgent bulletin or relay with the Priority List full, a second RETUNE and a second
COMMIT. -/
def Obligations.TakingAndNoRoom : Prop :=
  (∀ (slot : Nat) (s : State), slot < 128 → s.MemoryCanonical →
    let t := takeDocket noBus slot s
    t.slotState slot = 2 ∧ t.slotBytes slot 8 4 = leBytes 4 s.rack.seq
    ∧ t.rack.seq = (if s.rack.seq = 4294967295 then 1 else s.rack.seq + 1)
    ∧ (∀ a, (∀ k ∈ [0, 8, 9, 10, 11], a ≠ busAddress s.rack.rackBase (slotOffset slot + k)) →
        Mem.read t.mem a = Mem.read s.mem a)
    ∧ { t with mem := s.mem, rack := s.rack } = s)
  ∧ (∀ (slot n : Nat) (bus : Bus) (s : State), slot < 128 → s.MemoryCanonical → Access.take slot n ∈ bus.errors →
    let t := takeDocket bus slot s
    t.slotState slot = s.slotState slot ∧ t.rack.pendingTakes = s.rack.pendingTakes ++ [(slot, s.rack.seq)]
    ∧ t.rack.events = s.rack.events ||| Flag.busErr.word
    ∧ t.rack.seq = (if s.rack.seq = 4294967295 then 1 else s.rack.seq + 1)
    ∧ { t with mem := s.mem, rack := s.rack } = s)
  ∧ ∀ (kind : Kind) (slot : Nat) (bus : Bus) (s u : State), bus.errors = [] → bus.prompt = [] →
    s.Hands bus slot (some kind) u → u.Calm →
    (∃ c, Chan.ofNumber (u.slotField slot 32 1) = some c
        ∧ ((kind = .telex ∧ telexRefusal u (u.telexDocket slot) = none
              ∧ (64 ≤ u.telex.length ∨ 16 ≤ (u.queue c).length))
            ∨ (kind = .retune ∧ u.slotField slot 33 1 ≤ 31 ∧ (u.chan c).offWaits = false
              ∧ ((u.chan c).state = .retuning
                ∨ ((u.chan c).pendingRetune.isSome = true ∧ (u.chan c).state ≠ .off ∧ (u.chan c).state ≠ .faulted
                  ∧ (u.chan c).state ≠ .lockedOut)))))
      ∨ (kind = .bulletin ∧ bulletinRefusal u (u.bulletinDocket slot) = none ∧ 48 ≤ u.calendar.length)
      ∨ ((kind = .urgent ∨ kind = .distress) ∧ maskChans (priorityMask u slot) ≠ [] ∧ 8 ≤ u.priority.length)
      ∨ (kind = .commit ∧ u.store.commit.isSome = true) →
    exec (docketCommand (some kind) slot bus) s =
      .next { u with rack := { u.rack with
        held := u.rack.held + 1, events := u.rack.events ||| Flag.deferred.word } }

/-- TELEX (R67 to R72): a docket that passes the checks of R68 and finds room is taken, and its item, with the fields
of the docket, its counts 0 and its offset 0, enters its channel's queue: a PRIORITY item directly before the first
waiting ORDINARY item of the channel, or last where there is none; an ORDINARY item last. The items there keep their
order. Here the channel takes no pick. -/
def Obligations.TelexTakenIntoQueue : Prop :=
  ∀ (slot : Nat) (c : Chan) (bus : Bus) (s u : State), bus.errors = [] → bus.prompt = [] →
    s.Hands bus slot (some .telex) u → u.Calm → u.takesNoPick c →
    telexRefusal u (u.telexDocket slot) = none → Chan.ofNumber (u.slotField slot 32 1) = some c →
    u.telex.length < 64 → (u.queue c).length < 16 →
    let waits (x : TelexItem) : Prop := x.channel = c ∧ x.state = .queued ∧ x.priority = false
    ∃ t i before behind, exec (.telex slot bus) s = .next t
      ∧ u.telex = before ++ behind ∧ t.telex = before ++ i :: behind
      ∧ (i.priority = true → (∀ x ∈ before, ¬ waits x) ∧ ∀ x, behind.head? = some x → waits x)
      ∧ (i.priority = false → behind = [])
      ∧ i.slot = slot ∧ i.channel = c ∧ i.priority = decide (u.slotField slot 33 1 = 1) ∧ i.state = .queued
      ∧ i.callCode = (u.slotBytes slot 38 8).take (u.slotField slot 34 1)
      ∧ i.answerback = (if u.slotField slot 34 1 = 0 then [] else (u.slotBytes slot 46 20).take (u.slotField slot 35 1))
      ∧ i.firstPage = u.slotField slot 36 2 ∧ i.offset = 0 ∧ i.sent = 0 ∧ i.cuts = 0 ∧ i.attempts = 0
      ∧ (t.queue c).length = (u.queue c).length + 1 ∧ (∀ d, d ≠ c → t.queue d = u.queue d)
      ∧ t.mem = (takeDocket noBus slot u).mem ∧ t.rack = { u.rack with seq := nextSeq u.rack.seq }
      ∧ t.calendar = u.calendar ∧ t.priority = u.priority ∧ t.store = u.store ∧ t.clock = u.clock
      ∧ (∀ d, (t.chan d).state = (u.chan d).state ∧ (t.chan d).tx = (u.chan d).tx
          ∧ (t.chan d).onAir = (u.chan d).onAir)

/-- Dockets refused at intake (R6, R33, R37, R68, R78, R101, R124, R158, R171, R172, R180 to R184), by kind and cause:
the answer REFUSED with its reason enters the backlog with expected state FILED, the counter advances, and nothing else
of the part changes. -/
def Obligations.RefusalsAnswerAndChangeNothing : Prop :=
  ∀ (kind : Option Kind) (reason : Reason) (slot : Nat) (bus : Bus) (s u : State), bus.prompt = [] →
    s.Hands bus slot kind u → u.Calm →
    (kind = none ∧ reason = .badKind)
      ∨ (kind = some .telex ∧ telexRefusal u (u.telexDocket slot) = some reason)
      ∨ (kind = some .bulletin ∧ bulletinRefusal u (u.bulletinDocket slot) = some reason)
      ∨ ((kind = some .urgent ∨ kind = some .distress) ∧ maskChans (priorityMask u slot) = [] ∧ reason = .badChannel)
      ∨ (kind = some .withdraw ∧ u.telexAt (u.slotField slot 32 1) = none
          ∧ u.entryAt (u.slotField slot 32 1) = none ∧ u.prioAt (u.slotField slot 32 1) = none ∧ reason = .notHeld)
      ∨ ((kind = some .hold ∨ kind = some .release ∨ kind = some .retune ∨ kind = some .clearfault
            ∨ kind = some .quieten) ∧ Chan.ofNumber (u.slotField slot 32 1) = none ∧ reason = .badChannel)
      ∨ (kind = some .retune ∧ 31 < u.slotField slot 33 1 ∧ reason = .badChannel)
      ∨ (∃ c, Chan.ofNumber (u.slotField slot 32 1) = some c
          ∧ ((kind = some .hold ∨ (kind = some .retune ∧ u.slotField slot 33 1 ≤ 31))
              ∧ (((u.chan c).state = .off ∨ (u.chan c).offWaits = true) ∧ reason = .channelOff
                ∨ (u.chan c).offWaits = false ∧ ((u.chan c).state = .faulted ∨ (u.chan c).state = .lockedOut)
                  ∧ reason = .channelFaulted)
            ∨ (kind = some .clearfault ∧ ((u.chan c).state = .faulted ∨ (u.chan c).state = .lockedOut)
                ∧ (u.chan c).line.alarm.level = some true ∧ reason = .lineActive)))
      ∨ (kind = some .setclock ∧ 86399999 < u.slotField slot 32 4 ∧ reason = .badTime)
      ∨ (kind = some .setup ∧ u.store.setup = true ∧ reason = .inSetup)
      ∨ (kind = some .setup ∧ u.store.setup = false ∧ (∃ c, (u.chan c).state.busy = true) ∧ reason = .channelsBusy)
      ∨ ((kind = some .setupExit ∨ kind = some .settingsWrite) ∧ u.store.setup = false ∧ reason = .notInSetup)
      ∨ ((kind = some .settingsRead ∨ (kind = some .settingsWrite ∧ u.store.setup = true))
          ∧ (u.slotField slot 32 2 = 0 ∨ 4094 < u.slotField slot 32 2) ∧ reason = .badText)
      ∨ (kind = some .commit ∧ u.store.commit = none ∧ u.store.protection = .fixed ∧ reason = .fixed)
      ∨ (kind = some .commit ∧ u.store.commit = none ∧ u.store.protection = .keyed
          ∧ u.slotBytes slot 32 8 ≠ u.store.key ∧ reason = .keyWrong) →
    exec (docketCommand kind slot bus) s = .next (u.answeredAtIntake slot .refused (some reason) .none)

/-- The causes that a TELEX and a BULLETIN docket are refused for, by the docket's fields, in the order of R68 and of
R101 with the mask of R102 and the pair conditions of R114; and the walk of a chain at intake (R139, R101 step 7,
R124): with no bus error it is good exactly when some chain of at most 64 different pages starts at the first page,
each page WRITTEN with a count of 1 to 248, each leading to the next and the last to END; a docket with a bad chain is
refused with BAD_TEXT, and one whose walk meets a bus error is answered BUS_FAULT, with BUSERR raised. -/
def Obligations.RefusalCausesAndChainWalk : Prop :=
  (∀ (s : State) (d : TelexDocket),
    (d.channel = 0 ∨ 6 < d.channel → telexRefusal s d = some .badChannel)
    ∧ ∀ c, Chan.ofNumber d.channel = some c →
      ((s.store.working.chan.get c).enabled = false → telexRefusal s d = some .channelOff)
      ∧ ((s.store.working.chan.get c).enabled = true →
        ((s.chan c).state = .lockedOut → telexRefusal s d = some .channelFaulted)
        ∧ ((s.chan c).state ≠ .lockedOut →
          (telexRefusal s d = some .badText ∨ telexRefusal s d = none)
          ∧ (telexRefusal s d = none ↔ d.callLength ≤ 8
              ∧ (d.callLength = 0 ∨ 1 ≤ d.answerLength ∧ d.answerLength ≤ 20)
              ∧ 1 ≤ d.firstPage ∧ d.firstPage ≤ 4095))))
  ∧ (∀ (s : State) (d : BulletinDocket) (mask : BitVec 8), mask = bulletinMask s d →
    let seriesGood : Prop := d.series ≤ 15 ∧ ∃ k, s.store.working.series[d.series]? = some k ∧ k.enabled = true
    let timesGood : Prop := 1 ≤ d.intervalMin ∧ d.intervalMin ≤ 1440 ∧ 1 ≤ d.repetitions ∧ d.repetitions ≤ 15
      ∧ (d.partner = none → d.start ≤ 86399999 ∧ d.toleranceMin ≤ 60)
    let maskGood : Prop := ∃ c, inMask mask c = true
    let pairGood : Prop := ∀ p, d.partner = some p → ∃ e, s.entryAt p = some e ∧ e.withdrawn = false
      ∧ e.role = .single ∧ e.mask = mask ∧ e.requested = d.repetitions ∧ e.interval = d.intervalMin * 60000
      ∧ e.done = 0 ∧ ∀ c, inMask e.mask c = true → e.out.get c = .pending
    (∀ k, s.store.working.series[d.series]? = some k → ∀ c, inMask mask c = true ↔ inMask d.mask c = true
        ∧ inMask k.allowed c = true ∧ (s.store.working.chan.get c).enabled = true)
    ∧ (s.clock.isSet = false → bulletinRefusal s d = some .clockNotSet)
    ∧ (s.clock.isSet = true →
      (¬ seriesGood → bulletinRefusal s d = some .badSeries)
      ∧ (seriesGood → ¬ timesGood → bulletinRefusal s d = some .badTime)
      ∧ (seriesGood → timesGood → ¬ maskGood → bulletinRefusal s d = some .badChannel)
      ∧ (seriesGood → timesGood → maskGood → ¬ pairGood → bulletinRefusal s d = some .badPair)
      ∧ (seriesGood → timesGood → maskGood → pairGood → bulletinRefusal s d = none)))
  ∧ (∀ (first : Nat) (s : State), intakeWalk noBus s 64 first [] = .good ↔
    ∃ chain : List Nat, chain.head? = some first ∧ chain.length ≤ 64 ∧ chain.Nodup
      ∧ (∀ n ∈ chain, 1 ≤ n ∧ n ≤ 4095 ∧ (s.pageHeader n).state = 1 ∧ 1 ≤ (s.pageHeader n).count
          ∧ (s.pageHeader n).count ≤ 248)
      ∧ (∀ i a b, chain[i]? = some a → chain[i + 1]? = some b → (s.pageHeader a).next = b)
      ∧ ∀ n, chain.getLast? = some n → (s.pageHeader n).next = 65535)
  ∧ ∀ (kind : Kind) (first slot : Nat) (bus : Bus) (s u : State), bus.prompt = [] → s.Hands bus slot (some kind) u →
    u.Calm →
    (kind = .bulletin ∧ bulletinRefusal u (u.bulletinDocket slot) = none ∧ u.calendar.length < 48
        ∧ first = u.slotField slot 38 2)
      ∨ ((kind = .urgent ∨ kind = .distress) ∧ maskChans (priorityMask u slot) ≠ [] ∧ u.priority.length < 8
        ∧ first = u.slotField slot 34 2) →
    (intakeWalk bus u 64 first [] = .badText → exec (docketCommand (some kind) slot bus) s =
      .next (u.answeredAtIntake slot .refused (some .badText) .none))
    ∧ (intakeWalk bus u 64 first [] = .busFault → exec (docketCommand (some kind) slot bus) s =
      .next (State.answeredAtIntake { u with rack := { u.rack with events := u.rack.events ||| Flag.busErr.word } }
        slot .busFault none .none))
    ∧ (Access.page first ∈ bus.errors → 1 ≤ first → first ≤ 4095 → intakeWalk bus u 64 first [] = .busFault)

/-- BULLETIN (R101, R102, R106, R114): a good docket without a partner is taken; it is DUE at once, with what is left of
its tolerance, if its start time lies at most the tolerance back, and WAITING otherwise. Its mask keeps the channels that
the docket names, the series allows and that are ON; with more repetitions than one, a tolerance of the interval or more
is clamped to one minute less than the interval; series, first page, counts and interval are the docket's. One that
names a partner is taken as the follower of the partner's entry, which becomes the leader. -/
def Obligations.BulletinTakenSingleOrFollower : Prop :=
  ∀ (slot : Nat) (bus : Bus) (s u : State), bus.errors = [] → bus.prompt = [] → s.Hands bus slot (some .bulletin) u →
    u.Calm → bulletinRefusal u (u.bulletinDocket slot) = none → u.calendar.length < 48 →
    intakeWalk bus u 64 (u.bulletinDocket slot).firstPage [] = .good →
    let d := u.bulletinDocket slot
    let late := forward d.start u.clock.value
    let masked (mask : BitVec 8) : Prop := mask = bulletinMask u d ∧ ∀ k, u.store.working.series[d.series]? = some k →
      ∀ c, inMask mask c = (inMask d.mask c && inMask k.allowed c && (u.store.working.chan.get c).enabled)
    (d.partner = none → (∀ c, u.takesNoPick c) →
      ∃ t e, exec (.bulletin slot bus) s = .next t ∧ t.calendar = u.calendar ++ [e]
        ∧ e.slot = slot ∧ e.role = .single ∧ e.start = d.start ∧ e.left = d.repetitions ∧ e.done = 0
        ∧ e.series = d.series ∧ e.firstPage = d.firstPage ∧ e.requested = d.repetitions ∧ e.seq = u.rack.seq
        ∧ masked e.mask ∧ e.tolerance = bulletinTolerance d
        ∧ e.tolerance = (if 1 < d.repetitions ∧ d.intervalMin ≤ d.toleranceMin then d.intervalMin - 1
            else d.toleranceMin) * 60000
        ∧ e.interval = d.intervalMin * 60000 ∧ e.limitPassed = false ∧ e.withdrawn = false
        ∧ (∀ c, e.out.get c = if inMask e.mask c then .pending else .notUsed)
        ∧ (late ≤ e.tolerance → e.phase = some .due ∧ e.e = late ∧ e.r = (e.tolerance : Int) - (late : Int))
        ∧ (e.tolerance < late → e.phase = some .waiting)
        ∧ t.mem = (takeDocket noBus slot u).mem ∧ t.rack = { u.rack with seq := nextSeq u.rack.seq }
        ∧ t.telex = u.telex ∧ t.priority = u.priority ∧ t.clock = u.clock ∧ t.store = u.store)
    ∧ (∀ p l, d.partner = some p → u.entryAt p = some l →
      ∃ t f, exec (.bulletin slot bus) s = .next t
        ∧ t.calendar = u.calendar.map (fun x =>
            if x.slot = p then { x with role := .leader, partner := some slot } else x) ++ [f]
        ∧ f.slot = slot ∧ f.role = .follower ∧ f.partner = some p ∧ f.phase = none
        ∧ f.done = l.done ∧ f.left = l.left ∧ f.series = d.series ∧ f.firstPage = d.firstPage
        ∧ f.seq = u.rack.seq ∧ f.interval = d.intervalMin * 60000 ∧ masked f.mask
        ∧ (∀ c, f.out.get c = if inMask f.mask c then .pending else .notUsed)
        ∧ t.chans = u.chans ∧ t.rack = { u.rack with seq := nextSeq u.rack.seq }
        ∧ t.mem = (takeDocket noBus slot u).mem ∧ t.telex = u.telex ∧ t.priority = u.priority)

/-- URGENT and DISTRESS (R124 to R127, R20, R123): a good docket is the last entry of the list, PENDING on each channel
of its mask, an urgent bulletin with its limit started. A relay's outcome then follows the state of each channel:
FAILED where it is HELD or LOCKED_OUT, or FAULTED without the reduced-power condition of R30; PENDING where it is
UNREADY, RETUNING, busy with an item, or in HANG, which makes a pick at its next boundary. A relay that fails on every
channel of its mask is taken and answered FAILED in the event of intake; that its slot is written TAKEN there, and its
answer expects TAKEN, is the model's reading of R171 (notes/assumptions/63.md). On an IDLE channel, its only one, it is picked at once
and the lead runs. -/
def Obligations.PriorityTakenAndOffered : Prop :=
  ∀ (slot : Nat) (distress : Bool) (bus : Bus) (s u : State), bus.errors = [] → bus.prompt = [] →
    s.Hands bus slot (some (if distress then .distress else .urgent)) u → u.Calm →
    maskChans (priorityMask u slot) ≠ [] → u.priority.length < 8 →
    intakeWalk bus u 64 (u.slotField slot 34 2) [] = .good →
    let fails (c : Chan) : Prop := (u.chan c).state = .held ∨ (u.chan c).state = .lockedOut
      ∨ (u.chan c).state = .faulted
        ∧ ((u.store.working.chan.get c).reduced = false ∨ (u.chan c).line.lastKind ≠ .alarm)
    (distress = false → (∀ c, inMask (priorityMask u slot) c = true → u.takesNoPick c) →
      ∃ t e, exec (.urgent slot bus) s = .next t ∧ t.priority = u.priority ++ [e]
        ∧ e.slot = slot ∧ e.distress = false ∧ e.mask = priorityMask u slot ∧ e.firstPage = u.slotField slot 34 2
        ∧ e.limit = some (u.store.working.urgentMinutes * 60000) ∧ e.limitPassed = false ∧ e.withdrawn = false
        ∧ (∀ c, e.out.get c = if inMask e.mask c then .pending else .notUsed)
        ∧ t.mem = (takeDocket noBus slot u).mem ∧ t.rack = { u.rack with seq := nextSeq u.rack.seq }
        ∧ t.chans = u.chans ∧ t.telex = u.telex ∧ t.calendar = u.calendar ∧ t.clock = u.clock)
    ∧ (distress = true →
      (∀ c, inMask (priorityMask u slot) c = true → fails c ∨ (u.chan c).state ≠ .idle ∧ (u.chan c).state ≠ .faulted) →
      (∃ c, inMask (priorityMask u slot) c = true ∧ ¬ fails c) →
      ∃ t e, exec (.distress slot bus) s = .next t ∧ t.priority = u.priority ++ [e]
        ∧ e.slot = slot ∧ e.distress = true ∧ e.mask = priorityMask u slot ∧ e.limit = none
        ∧ (∀ c, inMask e.mask c = false → e.out.get c = .notUsed)
        ∧ (∀ c, inMask e.mask c = true → (fails c → e.out.get c = .failed) ∧ (¬ fails c → e.out.get c = .pending))
        ∧ (∀ c, inMask e.mask c = true → (u.chan c).state = .hang →
            t.chan c = { u.chan c with pick := .atBoundary })
        ∧ (∀ c, inMask e.mask c = false ∨ (u.chan c).state ≠ .hang → t.chan c = u.chan c)
        ∧ t.telex = u.telex ∧ t.calendar = u.calendar ∧ t.rack = { u.rack with seq := nextSeq u.rack.seq }
        ∧ t.mem = (takeDocket noBus slot u).mem)
    ∧ (distress = true → (∀ c, inMask (priorityMask u slot) c = true → fails c) →
      ∃ t out, exec (.distress slot bus) s = .next t ∧ t.priority = u.priority
        ∧ t.rack.backlog = u.rack.backlog ++ [u.takenAnswer slot .failed (.priority out) true]
        ∧ (∀ c, out.get c = if inMask (priorityMask u slot) c then .failed else .notUsed)
        ∧ (t.chan (walkerOf (priorityMask u slot))).fetch.walks =
            (u.chan (walkerOf (priorityMask u slot))).fetch.walks
              ++ [{ slot := slot, page := u.slotField slot 34 2, limit := 64 }]
        ∧ (∀ c, (t.chan c).state = (u.chan c).state ∧ (t.chan c).tx = (u.chan c).tx)
        ∧ t.telex = u.telex ∧ t.calendar = u.calendar)
    ∧ (∀ c, distress = true → maskChans (priorityMask u slot) = [c] → (u.chan c).state = .idle →
      u.pendingRelay c = none → (u.store.working.chan.get c).lead ≠ 0 →
      ∃ t, exec (.distress slot bus) s = .next t ∧ (t.chan c).state = .keying ∧ (t.chan c).key = true
        ∧ (t.chan c).onAir = some { kind := .distress, slot := slot, repetition := 0, resumed := false }
        ∧ (t.chan c).lead = some (u.store.working.chan.get c).lead
        ∧ (t.chan c).tx = some { kind := .idle, code := u.store.working.idle }
        ∧ (t.chan c).period = some (u.store.working.chan.get c).period
        ∧ (∃ e, t.prioAt slot = some e ∧ e.out.get c = .onAir ∧ e.distress = true)
        ∧ (∀ d, d ≠ c → t.chan d = u.chan d) ∧ t.telex = u.telex ∧ t.calendar = u.calendar)

/-- WITHDRAW of a telex item (R79, R80): one that waits ends WITHDRAWN in the event of intake, its answer ahead of the
WITHDRAW's own DONE, its marking walk asked for; so does one in KEYING, CALLING or CLOSING, whose channel, for which
nothing else waits, is in HANG with the idle code; one being sent becomes ENDING and stays on the air; one already
ENDING is refused with ALREADY_ENDING. -/
def Obligations.WithdrawTelexByItsState : Prop :=
  ∀ (slot target : Nat) (i : TelexItem) (bus : Bus) (s u : State), bus.prompt = [] →
    s.Hands bus slot (some .withdraw) u → u.Calm → u.slotField slot 32 1 = target → u.telexAt target = some i →
    u.takesNoPick i.channel →
    (i.state = .queued ∨ i.state = .interrupted → ∃ t, exec (.withdraw slot bus) s = .next t
      ∧ t.telex = u.telex.filter (fun x => x.slot != target)
      ∧ t.rack.backlog = u.rack.backlog ++ [u.takenAnswer target .withdrawn i.progress true, u.intakeAnswer slot .done none .none]
      ∧ t.rack.seq = nextSeq u.rack.seq ∧ t.mem = u.mem ∧ t.calendar = u.calendar ∧ t.priority = u.priority
      ∧ (t.chan i.channel).fetch.walks = (u.chan i.channel).fetch.walks
          ++ [{ slot := target, page := walkStart i (u.chan i.channel).fetch, limit := 255 }]
      ∧ (t.chan i.channel).state = (u.chan i.channel).state ∧ (∀ d, d ≠ i.channel → t.chan d = u.chan d))
    ∧ ((i.state = .calling ∧ ((u.chan i.channel).state = .keying ∨ (u.chan i.channel).state = .calling))
        ∨ (i.state = .onAir ∧ ((u.chan i.channel).state = .keying ∨ (u.chan i.channel).state = .closing)) →
      u.NothingBehind i.channel i → (u.chan i.channel).item.hang ≠ 0 → ∃ t, exec (.withdraw slot bus) s = .next t
      ∧ t.telex = u.telex.filter (fun x => x.slot != target)
      ∧ t.rack.backlog = u.rack.backlog ++ [u.takenAnswer target .withdrawn i.progress true, u.intakeAnswer slot .done none .none]
      ∧ (t.chan i.channel).state = .hang ∧ (t.chan i.channel).hang = some (u.chan i.channel).item.hang
      ∧ (t.chan i.channel).lead = none ∧ (t.chan i.channel).onAir = none
      ∧ (t.chan i.channel).call.condition = .standby ∧ (t.chan i.channel).call.timer = none
      ∧ (t.chan i.channel).tx = some { kind := .idle, code := (u.chan i.channel).item.idle }
      ∧ (t.chan i.channel).fetch.walks = (u.chan i.channel).fetch.walks
          ++ [{ slot := target, page := walkStart i (u.chan i.channel).fetch, limit := 255 }]
      ∧ (∀ d, d ≠ i.channel → t.chan d = u.chan d) ∧ t.mem = u.mem ∧ t.calendar = u.calendar
      ∧ t.priority = u.priority)
    ∧ (i.state = .onAir → (u.chan i.channel).state = .sending → ∃ t, exec (.withdraw slot bus) s = .next t
      ∧ t.telexAt target = some { i with state := .ending } ∧ t.telex.length = u.telex.length
      ∧ t.rack.backlog = u.rack.backlog ++ [u.intakeAnswer slot .done none .none]
      ∧ (t.chan i.channel).onAir = (u.chan i.channel).onAir ∧ (t.chan i.channel).state = .sending
      ∧ ((u.chan i.channel).segment = some .cutNotice → (t.chan i.channel).fixed = some (.ends .withdrawn))
      ∧ t.mem = u.mem ∧ t.calendar = u.calendar ∧ t.priority = u.priority)
    ∧ (i.state = .ending →
        exec (.withdraw slot bus) s = .next (u.answeredAtIntake slot .refused (some .alreadyEnding) .none))

/-- WITHDRAW of a calendar entry (R118, R119). Where no channel takes a pick: one already withdrawn is refused with
ALREADY_ENDING; a single entry with nothing on the air leaves the calendar WITHDRAWN, its answer, with the current
repetition's outcomes and its SENT ones counted, ahead of the WITHDRAW's DONE; one with a transmission on the air stays,
withdrawn, and the WITHDRAW is answered DONE; a pair ends together, leader first, whichever of the two is named. Where a
WAITING entry leaves, a channel of its mask in the lookahead wait compares A with its threshold (R59). A WAITING entry
that leaves is a pick trigger on the channels of its mask (R108, R21): in IDLE, outside setup mode and with nothing else
to pick, the head of the telex queue, its first line settled, is taken in the same event if its need fits in A as it
stands without the entry, and is left if it does not; in HANG the pick is made at the next character boundary. -/
def Obligations.WithdrawBulletinEndsOrWaits : Prop :=
  (∀ (slot target : Nat) (e : CalEntry) (bus : Bus) (s u : State), bus.prompt = [] →
    s.Hands bus slot (some .withdraw) u → u.Calm → (∀ c, u.takesNoPick c) → u.slotField slot 32 1 = target →
    u.telexAt target = none → u.entryAt target = some e →
    let closed (o : ChanOutcome) : ChanOutcome := if o = .pending ∨ o = .failed then .notUsed else o
    (e.withdrawn = true →
      exec (.withdraw slot bus) s = .next (u.answeredAtIntake slot .refused (some .alreadyEnding) .none))
    ∧ (e.withdrawn = false → e.role = .single → (∀ c, e.out.get c ≠ .onAir) →
      ∃ t last count, exec (.withdraw slot bus) s = .next t
        ∧ t.calendar = u.calendar.filter (fun x => x.slot != target)
        ∧ t.rack.backlog = u.rack.backlog
            ++ [u.takenAnswer target .withdrawn (.bulletin e.done last count) true, u.intakeAnswer slot .done none .none]
        ∧ (∀ c, last.get c = if inMask e.mask c then closed (e.out.get c) else .notUsed)
        ∧ (∀ c, count.get c = e.sentCount.get c + (if inMask e.mask c = true ∧ e.out.get c = .sent then 1 else 0))
        ∧ (t.chan (walkerOf e.mask)).fetch.walks = (u.chan (walkerOf e.mask)).fetch.walks
            ++ [{ slot := target, page := e.firstPage, limit := 64 }]
        ∧ (∀ c, (t.chan c).state = (u.chan c).state ∧ (t.chan c).tx = (u.chan c).tx)
        ∧ (∀ c, e.phase = some .waiting → inMask e.mask c = true → (u.chan c).waitOpen = true →
            ((t.chan c).cutDecided = true ↔ ∃ a : Int, t.available c = some a
              ∧ a ≤ (((u.chan c).item.cut.length + 1) * (u.chan c).item.period : Nat)))
        ∧ t.mem = u.mem ∧ t.telex = u.telex ∧ t.priority = u.priority)
    ∧ (e.withdrawn = false → e.role = .single → (∃ c, e.out.get c = .onAir) →
      ∃ t x, exec (.withdraw slot bus) s = .next t ∧ t.entryAt target = some x
        ∧ x = { e with withdrawn := true, out := x.out } ∧ (∀ c, x.out.get c = closed (e.out.get c))
        ∧ t.rack.backlog = u.rack.backlog ++ [u.intakeAnswer slot .done none .none]
        ∧ (∀ c, (t.chan c).state = (u.chan c).state ∧ (t.chan c).tx = (u.chan c).tx
            ∧ (t.chan c).onAir = (u.chan c).onAir) ∧ t.telex = u.telex ∧ t.priority = u.priority ∧ t.mem = u.mem)
    ∧ (∀ l f, e = l ∨ e = f → l.withdrawn = false → f.withdrawn = false → u.entryAt l.slot = some l →
      u.entryAt f.slot = some f → l.role = .leader → l.partner = some f.slot → f.role = .follower →
      f.partner = some l.slot → (∀ c, l.out.get c ≠ .onAir ∧ f.out.get c ≠ .onAir) →
      ∃ t a b, exec (.withdraw slot bus) s = .next t
        ∧ t.calendar = u.calendar.filter (fun x => x.slot != l.slot && x.slot != f.slot)
        ∧ t.rack.backlog = u.rack.backlog ++ [a, b, u.intakeAnswer slot .done none .none]
        ∧ a.slot = l.slot ∧ a.result = .withdrawn ∧ a.walk = true ∧ b.slot = f.slot ∧ b.result = .withdrawn
        ∧ b.walk = true ∧ (∀ c, (t.chan c).follower ≠ some l.slot) ∧ t.telex = u.telex ∧ t.priority = u.priority))
  ∧ ∀ (slot target : Nat) (e : CalEntry) (c : Chan) (bus : Bus) (s u : State), bus.prompt = [] →
    s.Hands bus slot (some .withdraw) u → u.Calm → (∀ d, d ≠ c → u.takesNoPick d) → u.slotField slot 32 1 = target →
    u.telexAt target = none → u.entryAt target = some e → e.withdrawn = false → e.role = .single →
    e.phase = some .waiting → (∀ d, e.out.get d ≠ .onAir) → inMask e.mask c = true → u.NothingBeforeDue c →
    u.dueEntry c = none →
    let rest : State := { u with calendar := u.calendar.filter (fun x => x.slot != target) }
    let leaves (t : State) : Prop :=
      t.calendar = rest.calendar ∧ t.priority = u.priority ∧ ∃ last count, t.rack.backlog = u.rack.backlog
        ++ [u.takenAnswer target .withdrawn (.bulletin e.done last count) true, u.intakeAnswer slot .done none .none]
    ((u.chan c).state = .idle → ∀ item rd final need, u.head c = some item → u.telexAt item.slot = some item →
      (u.chan c).fetch.reading = some rd → rd.slot = item.slot → rd.condition = .settled final →
      need = startNeed u.store.working c false item (decide (item.state = .interrupted)) rd.line.length final →
      ((∀ a, rest.available c = some a → (need : Int) ≤ a) → ∃ t i, exec (.withdraw slot bus) s = .next t ∧ leaves t
        ∧ u.KeyedUp t c { kind := .telex, slot := item.slot, repetition := 0,
                          resumed := decide (item.state = .interrupted) }
        ∧ t.telexAt item.slot = some i ∧ (item.callCode = [] → i.state = .onAir)
        ∧ (item.callCode ≠ [] → i.state = .calling))
      ∧ (∀ a, rest.available c = some a → a < (need : Int) → ∃ t, exec (.withdraw slot bus) s = .next t ∧ leaves t
        ∧ (t.chan c).state = .idle ∧ (t.chan c).key = false ∧ t.telex = u.telex))
    ∧ ((u.chan c).state = .hang → ∃ t, exec (.withdraw slot bus) s = .next t ∧ leaves t ∧ (t.chan c).state = .hang
      ∧ (t.chan c).pick = .atBoundary ∧ t.telex = u.telex)

/-- WITHDRAW of an urgent bulletin with nothing on the air, and of a relay (R78, R134): the bulletin ends WITHDRAWN,
its answer ahead of the WITHDRAW's DONE; a relay is refused with NOT_WITHDRAWABLE. -/
def Obligations.WithdrawUrgentEndsIt : Prop :=
  ∀ (slot target : Nat) (e : PrioEntry) (bus : Bus) (s u : State), bus.prompt = [] →
    s.Hands bus slot (some .withdraw) u → u.Calm → u.slotField slot 32 1 = target → u.telexAt target = none →
    u.entryAt target = none → u.prioAt target = some e →
    (e.distress = true →
      exec (.withdraw slot bus) s = .next (u.answeredAtIntake slot .refused (some .notWithdrawable) .none))
    ∧ (e.distress = false → e.withdrawn = true →
      exec (.withdraw slot bus) s = .next (u.answeredAtIntake slot .refused (some .alreadyEnding) .none))
    ∧ (e.distress = false → e.withdrawn = false → (∀ c, e.out.get c ≠ .onAir) →
      ∃ t out, exec (.withdraw slot bus) s = .next t ∧ t.priority = u.priority.filter (fun x => x.slot != target)
        ∧ t.rack.backlog = u.rack.backlog
            ++ [u.takenAnswer target .withdrawn (.priority out) true, u.intakeAnswer slot .done none .none]
        ∧ (∀ c, out.get c = if e.out.get c = .pending then .notUsed else e.out.get c)
        ∧ (t.chan (walkerOf e.mask)).fetch.walks = (u.chan (walkerOf e.mask)).fetch.walks
            ++ [{ slot := target, page := e.firstPage, limit := 64 }]
        ∧ t.telex = u.telex ∧ t.calendar = u.calendar ∧ t.mem = u.mem)
    ∧ (e.distress = false → e.withdrawn = false → (∃ c, e.out.get c = .onAir) → ∃ t x,
      exec (.withdraw slot bus) s = .next t ∧ t.prioAt target = some x ∧ x.withdrawn = true ∧ x.limit = none
        ∧ (∀ c, x.out.get c = if e.out.get c = .pending then .notUsed else e.out.get c)
        ∧ t.rack.backlog = u.rack.backlog ++ [u.intakeAnswer slot .done none .none] ∧ t.chans = u.chans)

/-- HOLD (R33, R34): a HELD channel, or one with a HOLD pending, answers DONE; an IDLE, UNREADY or HANG channel with
nothing pending enters HELD with its carrier down and the HOLD is answered DONE; a channel sending, closing or retuning,
or in KEYING with no telex item, keeps what it does with the HOLD pending. A telex item in KEYING or CALLING is handed
back INTERRUPTED at its offset (R74), with one cut more and the attempt under way not counted (R77); the channel, for
which nothing else waits, becomes free and enters HELD, and the HOLD is answered DONE. That a HOLD which brings its
channel to HELD at once is taken first, its slot written TAKEN and its answer expecting TAKEN, is the model's reading of
R171 (notes/assumptions/63.md); that the attempt counter of an opening call reads 0 after the hand-back, and that of a
closed phase keeps its count, is its reading of R85 and R95 (notes/assumptions/45.md). -/
def Obligations.HoldActsByChannelState : Prop :=
  ∀ (slot : Nat) (c : Chan) (bus : Bus) (s u : State), bus.errors = [] → bus.prompt = [] →
    s.Hands bus slot (some .hold) u → u.Calm → Chan.ofNumber (u.slotField slot 32 1) = some c →
    (u.chan c).offWaits = false →
    ((u.chan c).state = .held → exec (.hold slot bus) s = .next (u.answeredAtIntake slot .done none .none))
    ∧ ((u.chan c).state = .sending ∨ (u.chan c).state = .closing ∨ (u.chan c).state = .retuning →
        ((u.chan c).pendingHold.isSome = true →
          exec (.hold slot bus) s = .next (u.answeredAtIntake slot .done none .none))
        ∧ ((u.chan c).pendingHold = none →
          exec (.hold slot bus) s =
            .next ((takeDocket noBus slot u).setChan c (fun ch => { ch with pendingHold := some slot }))))
    ∧ ((u.chan c).state = .keying ∨ (u.chan c).state = .calling →
        ((u.chan c).pendingHold.isSome = true →
          exec (.hold slot bus) s = .next (u.answeredAtIntake slot .done none .none))
        ∧ ((u.chan c).pendingHold = none → u.telexOn c = none → exec (.hold slot bus) s =
          .next ((takeDocket noBus slot u).setChan c (fun ch => { ch with pendingHold := some slot })))
        ∧ (∀ item, u.telexOn c = some item → (u.chan c).pendingHold = none → (u.chan c).pendingRetune = none →
          (u.chan c).follower = none → u.pendingRelay c = none → ∃ t i, exec (.hold slot bus) s = .next t
            ∧ (t.chan c).state = .held ∧ (t.chan c).key = false ∧ (t.chan c).tx = none ∧ (t.chan c).lead = none
            ∧ (t.chan c).onAir = none ∧ (t.chan c).pendingHold = none ∧ (t.chan c).call.condition = .standby
            ∧ (t.chan c).call.attempts = (if (u.chan c).call.mode = some .opening then 0 else (u.chan c).call.attempts)
            ∧ t.telexAt item.slot = some i ∧ i.state = .interrupted ∧ i.offset = item.offset
            ∧ i.attempts = item.attempts ∧ i.cuts = (if item.cuts < 255 then item.cuts + 1 else item.cuts)
            ∧ t.rack.backlog = u.rack.backlog ++ [u.takenAnswer slot .done .none false]
            ∧ t.mem = (takeDocket noBus slot u).mem ∧ (∀ d, d ≠ c → t.chan d = u.chan d)
            ∧ t.calendar = u.calendar ∧ t.priority = u.priority))
    ∧ ((u.chan c).state = .idle ∨ (u.chan c).state = .unready ∨ (u.chan c).state = .hang →
        (u.chan c).pendingHold = none → (u.chan c).pendingRetune = none → (u.chan c).follower = none →
        u.pendingRelay c = none → ∃ t, exec (.hold slot bus) s = .next t
          ∧ (t.chan c).state = .held ∧ (t.chan c).key = false ∧ (t.chan c).tx = none ∧ (t.chan c).hang = none
          ∧ (t.chan c).period = none ∧ (t.chan c).pendingHold = none ∧ (t.chan c).preset = (u.chan c).preset
          ∧ (t.chan c).line = (u.chan c).line ∧ (∀ d, d ≠ c → t.chan d = u.chan d)
          ∧ t.rack.backlog = u.rack.backlog ++ [u.takenAnswer slot .done .none false]
          ∧ t.rack.seq = nextSeq u.rack.seq ∧ t.mem = (takeDocket noBus slot u).mem
          ∧ t.telex = u.telex ∧ t.calendar = u.calendar ∧ t.priority = u.priority)

/-- RELEASE (R36): a HELD channel enters IDLE, or UNREADY while its ready view is ABSENT, and the docket is answered
DONE; a pick follows on entry to IDLE, and takes nothing where nothing waits; in any other state the channel is
left. -/
def Obligations.ReleaseFreesHeldChannel : Prop :=
  ∀ (slot : Nat) (c : Chan) (bus : Bus) (s u : State), bus.prompt = [] → s.Hands bus slot (some .release) u → u.Calm →
    Chan.ofNumber (u.slotField slot 32 1) = some c →
    ((u.chan c).state ≠ .held → exec (.release slot bus) s = .next (u.answeredAtIntake slot .done none .none))
    ∧ ((u.chan c).state = .held → (u.chan c).readyView = false → exec (.release slot bus) s =
        .next ((u.setChan c (Channel.enter .unready)).answeredAtIntake slot .done none .none))
    ∧ ((u.chan c).state = .held → (u.chan c).readyView = true → exec (.release slot bus) s =
        .next (settleEvent bus ((u.setChan c (fun ch => { ch.enter .idle with pick := .now })).answeredAtIntake
          slot .done none .none)))
    ∧ ((u.chan c).state = .held → (u.chan c).readyView = true → u.NothingFor c → exec (.release slot bus) s =
        .next ((u.setChan c (Channel.enter .idle)).answeredAtIntake slot .done none .none))

/-- The pick that follows a RELEASE (R21, R22, R23, R25, R48, R49), for a HELD channel whose ready view is PRESENT and
whose key-up lead is not 0, outside setup mode, with no HOLD pending and no follower mark: it takes the first of a
relay, a pending RETUNE, an urgent bulletin, a due bulletin and the head of the telex queue, whose first line must be
settled and whose need, with U, must fit in A. An item taken puts the channel in KEYING, its settings latched, its
carrier up with the idle code and its lead running; the owner is told. A head that does not fit leaves the channel
IDLE, and no later item is tried; one whose reading has not been made has it started. An INTERRUPTED head at the end of
a chain that has reached END has an empty line, which is final; that its reading needs no page, and is settled and
tested in the same event, is the model's reading of the spec (notes/assumptions/54.md). -/
def Obligations.PickInIdleTakesByOrder : Prop :=
  ∀ (slot : Nat) (c : Chan) (bus : Bus) (s u : State), bus.prompt = [] → s.Hands bus slot (some .release) u → u.Calm →
    Chan.ofNumber (u.slotField slot 32 1) = some c → (u.chan c).state = .held → (u.chan c).readyView = true →
    u.store.setup = false → (u.chan c).pendingHold = none → (u.chan c).follower = none →
    (u.store.working.chan.get c).lead ≠ 0 →
    let keyed (t : State) (a : OnAir) : Prop :=
      (t.chan c).state = .keying ∧ (t.chan c).key = true ∧ (t.chan c).onAir = some a
      ∧ (t.chan c).lead = some (u.store.working.chan.get c).lead
      ∧ (t.chan c).item = ItemSettings.ofImage u.store.working c
      ∧ (t.chan c).tx = some { kind := .idle, code := u.store.working.idle }
      ∧ (t.chan c).period = some (u.store.working.chan.get c).period
      ∧ t.rack = (u.answeredAtIntake slot .done none .none).rack ∧ (∀ d, d ≠ c → t.chan d = u.chan d)
    (∀ e, u.pendingRelay c = some e → ∃ t x, exec (.release slot bus) s = .next t
      ∧ keyed t { kind := .distress, slot := e.slot, repetition := 0, resumed := false }
      ∧ t.prioAt e.slot = some x ∧ x.out.get c = .onAir ∧ t.calendar = u.calendar ∧ t.telex = u.telex)
    ∧ (∀ k p, u.pendingRelay c = none → (u.chan c).pendingRetune = some (k, p) →
      ∃ t, exec (.release slot bus) s = .next t ∧ (t.chan c).state = .retuning ∧ (t.chan c).preset = p
        ∧ (t.chan c).retune = some k ∧ (t.chan c).pendingRetune = none ∧ (t.chan c).returnHeld = false
        ∧ (t.chan c).strobe = some 10 ∧ (t.chan c).retuneLimit = some (u.store.working.retuneSeconds * 1000)
        ∧ (t.chan c).key = false ∧ (∀ d, d ≠ c → t.chan d = u.chan d)
        ∧ t.priority = u.priority ∧ t.calendar = u.calendar ∧ t.telex = u.telex)
    ∧ (u.pendingRelay c = none → (u.chan c).pendingRetune = none →
      (∀ e, u.waitingUrgent c = some e → ∃ t x, exec (.release slot bus) s = .next t
        ∧ keyed t { kind := .urgent, slot := e.slot, repetition := 0, resumed := false }
        ∧ t.prioAt e.slot = some x ∧ x.out.get c = .onAir ∧ t.calendar = u.calendar ∧ t.telex = u.telex)
      ∧ (∀ e, u.waitingUrgent c = none → u.dueEntry c = some e → ∃ t x, exec (.release slot bus) s = .next t
        ∧ keyed t { kind := .bulletin, slot := e.slot, repetition := e.done + 1, resumed := false }
        ∧ t.entryAt e.slot = some x ∧ x.out.get c = .onAir ∧ t.priority = u.priority ∧ t.telex = u.telex)
      ∧ (∀ item, u.waitingUrgent c = none → u.dueEntry c = none → u.head c = some item →
        ((u.chan c).fetch.reading = none →
          (∀ p, item.state = .interrupted → (u.chan c).fetch.resume = some p → p.ended = false) →
          ∃ t rd, exec (.release slot bus) s = .next t ∧ (t.chan c).state = .idle
          ∧ (t.chan c).fetch.reading = some rd ∧ rd.slot = item.slot ∧ rd.first = true ∧ rd.condition = .inProgress
          ∧ rd.request.isSome = true ∧ t.telex = u.telex ∧ (∀ d, d ≠ c → t.chan d = u.chan d))
        ∧ (∀ p need, (u.chan c).fetch.reading = none → item.state = .interrupted → (u.chan c).fetch.resume = some p →
          p.ended = true → need = startNeed u.store.working c false item true 0 true →
          ∃ t rd, exec (.release slot bus) s = .next t ∧ (t.chan c).fetch.reading = some rd ∧ rd.slot = item.slot
            ∧ rd.line = [] ∧ rd.condition = .settled true
            ∧ ((∀ a, u.available c = some a → (need : Int) ≤ a) →
                keyed t { kind := .telex, slot := item.slot, repetition := 0, resumed := true })
            ∧ (∀ a, u.available c = some a → a < (need : Int) →
                (t.chan c).state = .idle ∧ (t.chan c).key = false ∧ t.telex = u.telex
                ∧ (∀ d, d ≠ c → t.chan d = u.chan d)))
        ∧ (∀ rd final need, (u.chan c).fetch.reading = some rd → rd.slot = item.slot → rd.condition = .settled final →
          need = startNeed u.store.working c false item (decide (item.state = .interrupted)) rd.line.length final →
          ((∀ a, u.available c = some a → (need : Int) ≤ a) → ∃ t i, exec (.release slot bus) s = .next t
            ∧ keyed t { kind := .telex, slot := item.slot, repetition := 0,
                        resumed := decide (item.state = .interrupted) }
            ∧ t.telexAt item.slot = some i ∧ (item.callCode = [] → i.state = .onAir)
            ∧ (item.callCode ≠ [] → i.state = .calling) ∧ (t.chan c).fetch.reading = some rd
            ∧ t.priority = u.priority ∧ t.calendar = u.calendar)
          ∧ (∀ a, u.available c = some a → a < (need : Int) → exec (.release slot bus) s =
            .next ((u.setChan c (Channel.enter .idle)).answeredAtIntake slot .done none .none)))))

/-- The pick at a character boundary of a channel in HANG that a trigger has asked for (R16, R21 to R24, R34, R49),
outside setup mode: it takes the first of a relay, a pending HOLD, which is entry to HELD, a pending RETUNE, the
follower that the mark names, ahead of a HOLD and after a RETUNE, an urgent bulletin, a due bulletin and the head of
the telex queue, whose need, without U, must fit in A. A RETUNE taken while the mark stands clears it, and the pair is
FAILED on the channel (R24, R115). An item taken stops the hang timer and begins at this boundary, with no lead: a
collective item with its resume notice if it was INTERRUPTED and the notice is not empty, and otherwise with its first
line, which where it is empty and final is at its end, so that the signoff begins (R48, R61); an item with a call code
with the call; a bulletin, urgent bulletin or relay whose first page has not come with the idle code. A head that does
not fit leaves the channel in HANG with the idle code. -/
def Obligations.PickInHangTakesByOrder : Prop :=
  ∀ (c : Chan) (bus : Bus) (s : State), s.power = true → bus.prompt = [] → bus.writes = [] → bus.errors = [] → s.Calm →
    (s.chan c).state = .hang → (s.chan c).pick = .atBoundary → (s.chan c).period = some 0 → (s.chan c).onAir = none →
    (s.chan c).offWaits = false → (s.chan c).stopAtBoundary = false → s.store.setup = false →
    (s.chan c).item.hang ≠ 0 →
    let sends (t : State) (a : OnAir) : Prop :=
      (t.chan c).state = .sending ∧ (t.chan c).key = true ∧ (t.chan c).onAir = some a ∧ (t.chan c).hang = none
      ∧ (t.chan c).lead = none ∧ (t.chan c).item = ItemSettings.ofImage s.store.working c
      ∧ (t.chan c).tx = some { kind := .idle, code := s.store.working.idle }
      ∧ (t.chan c).period = some (s.store.working.chan.get c).period ∧ t.rack = s.rack
      ∧ (∀ d, d ≠ c → t.chan d = s.chan d)
    (∀ e, s.pendingRelay c = some e → ∃ t x, exec (.characterBoundary c bus) s = .next t
      ∧ sends t { kind := .distress, slot := e.slot, repetition := 0, resumed := false }
      ∧ t.prioAt e.slot = some x ∧ x.out.get c = .onAir ∧ t.calendar = s.calendar ∧ t.telex = s.telex)
    ∧ (s.pendingRelay c = none →
      (∀ f, s.markedFollower c = some f → (s.chan c).pendingRetune = none ∨ (s.chan c).pendingHold.isSome = true →
        s.entryAt f.slot = some f → ∃ t, exec (.characterBoundary c bus) s = .next t
          ∧ sends t { kind := .bulletin, slot := f.slot, repetition := f.done + 1, resumed := false }
          ∧ (t.chan c).follower = none ∧ (t.chan c).pendingHold = (s.chan c).pendingHold
          ∧ t.entryAt f.slot = some { f with out := f.out.set c .onAir } ∧ t.priority = s.priority
          ∧ t.telex = s.telex)
      ∧ (∀ k p, (s.chan c).follower = none → (s.chan c).pendingHold = none → (s.chan c).pendingRetune = some (k, p) →
        ∃ t, exec (.characterBoundary c bus) s = .next t ∧ (t.chan c).state = .retuning ∧ (t.chan c).preset = p
          ∧ (t.chan c).retune = some k ∧ (t.chan c).pendingRetune = none ∧ (t.chan c).returnHeld = false
          ∧ (t.chan c).key = false ∧ (t.chan c).tx = none ∧ (t.chan c).hang = none ∧ t.rack = s.rack
          ∧ (∀ d, d ≠ c → t.chan d = s.chan d))
      ∧ (∀ k p l f, (s.chan c).follower = some l.slot → s.entryAt l.slot = some l → s.entryAt f.slot = some f →
        l.role = .leader → l.partner = some f.slot → f.role = .follower → f.partner = some l.slot →
        l.phase = some .due → l.withdrawn = false → f.withdrawn = false → l.limitPassed = false →
        inMask l.mask c = true → l.out.get c = .sent → f.out.get c = .pending ∨ f.out.get c = .failed →
        (s.chan c).pendingHold = none → (s.chan c).pendingRetune = some (k, p) →
        ∃ t, exec (.characterBoundary c bus) s = .next t ∧ (t.chan c).state = .retuning ∧ (t.chan c).preset = p
          ∧ (t.chan c).retune = some k ∧ (t.chan c).pendingRetune = none ∧ (t.chan c).returnHeld = false
          ∧ (t.chan c).follower = none ∧ (t.chan c).key = false ∧ (t.chan c).tx = none ∧ (t.chan c).hang = none
          ∧ t.entryAt l.slot = some { l with out := l.out.set c .failed }
          ∧ t.entryAt f.slot = some { f with out := f.out.set c .failed }
          ∧ t.rack = s.rack ∧ (∀ d, d ≠ c → t.chan d = s.chan d))
      ∧ (∀ k, (s.chan c).follower = none → (s.chan c).pendingHold = some k → (s.chan c).pendingRetune = none →
        ∃ t, exec (.characterBoundary c bus) s = .next t ∧ (t.chan c).state = .held ∧ (t.chan c).key = false
          ∧ (t.chan c).pendingHold = none ∧ (t.chan c).hang = none
          ∧ t.rack.backlog = s.rack.backlog ++ [s.takenAnswer k .done .none false]
          ∧ (∀ d, d ≠ c → t.chan d = s.chan d))
      ∧ ((s.chan c).follower = none → (s.chan c).pendingHold = none → (s.chan c).pendingRetune = none →
        (∀ e, s.waitingUrgent c = some e → ∃ t x, exec (.characterBoundary c bus) s = .next t
          ∧ sends t { kind := .urgent, slot := e.slot, repetition := 0, resumed := false }
          ∧ t.prioAt e.slot = some x ∧ x.out.get c = .onAir ∧ t.calendar = s.calendar ∧ t.telex = s.telex)
        ∧ (∀ e, s.waitingUrgent c = none → s.dueEntry c = some e → ∃ t x, exec (.characterBoundary c bus) s = .next t
          ∧ sends t { kind := .bulletin, slot := e.slot, repetition := e.done + 1, resumed := false }
          ∧ t.entryAt e.slot = some x ∧ x.out.get c = .onAir ∧ t.priority = s.priority ∧ t.telex = s.telex)
        ∧ (∀ item rd final need, s.waitingUrgent c = none → s.dueEntry c = none → s.head c = some item →
          s.telexAt item.slot = some item → (s.chan c).fetch.reading = some rd → rd.slot = item.slot →
          rd.condition = .settled final →
          need = startNeed s.store.working c true item (decide (item.state = .interrupted)) rd.line.length final →
          ((∀ a, s.available c = some a → (need : Int) ≤ a) →
            (∀ first more, item.callCode = [] → item.state = .interrupted → s.store.working.resume = first :: more →
              ∃ t i, exec (.characterBoundary c bus) s = .next t ∧ (t.chan c).state = .sending
                ∧ (t.chan c).segment = some .resumeNotice ∧ (t.chan c).hang = none
                ∧ (t.chan c).tx = some { kind := .notice, code := first } ∧ (t.chan c).rest = more
                ∧ (t.chan c).textPosition = item.offset ∧ (t.chan c).fetch.reading = some rd
                ∧ t.telexAt item.slot = some i ∧ i.state = .onAir ∧ i.offset = item.offset
                ∧ (∀ d, d ≠ c → t.chan d = s.chan d))
            ∧ (item.callCode = [] → item.state ≠ .interrupted ∨ s.store.working.resume = [] →
              (∀ code more, rd.line = code :: more →
                ∃ t i, exec (.characterBoundary c bus) s = .next t ∧ (t.chan c).state = .sending
                  ∧ (t.chan c).segment = some .text ∧ (t.chan c).hang = none
                  ∧ (t.chan c).tx = some { kind := .text, code := code } ∧ (t.chan c).rest = more
                  ∧ (t.chan c).textPosition = item.offset
                  ∧ t.telexAt item.slot = some i ∧ i.state = .onAir ∧ (∀ d, d ≠ c → t.chan d = s.chan d))
              ∧ (∀ first more, rd.line = [] → final = true → s.store.working.signoff = first :: more →
                ∃ t i, exec (.characterBoundary c bus) s = .next t ∧ (t.chan c).state = .sending
                  ∧ (t.chan c).segment = some .signoff ∧ (t.chan c).hang = none
                  ∧ (t.chan c).tx = some { kind := .notice, code := first } ∧ (t.chan c).rest = more
                  ∧ t.telexAt item.slot = some i ∧ i.state = .onAir ∧ i.offset = item.offset
                  ∧ (∀ d, d ≠ c → t.chan d = s.chan d)))
            ∧ (∀ code more, item.callCode = code :: more →
              ∃ t i, exec (.characterBoundary c bus) s = .next t ∧ (t.chan c).state = .calling
                ∧ (t.chan c).hang = none ∧ (t.chan c).tx = some { kind := .call, code := code }
                ∧ (t.chan c).rest = more ++ [s.store.working.request] ∧ (t.chan c).call.attempts = 0
                ∧ t.telexAt item.slot = some i ∧ i.state = .calling ∧ (∀ d, d ≠ c → t.chan d = s.chan d)))
          ∧ (∀ a, s.available c = some a → a < (need : Int) → exec (.characterBoundary c bus) s =
            .next (s.setChan c (fun ch =>
              { ch with pick := .none, tx := some { kind := .idle, code := ch.item.idle }
                        period := some ch.item.period }))))))

/-- RETUNE (R37, R38): a HELD or UNREADY channel starts its retune at once, with the preset, the strobe and the limit;
so does an IDLE one for which nothing of a higher rank waits, by the pick that follows, and in setup mode, which makes
no such pick, it keeps the RETUNE pending. A channel in HANG keeps it pending until the pick of its next character
boundary (R21), and one that carries an item until it becomes free. -/
def Obligations.RetuneStartsOrWaits : Prop :=
  ∀ (slot preset : Nat) (c : Chan) (bus : Bus) (s u : State), bus.errors = [] → bus.prompt = [] →
    s.Hands bus slot (some .retune) u → u.Calm → Chan.ofNumber (u.slotField slot 32 1) = some c →
    u.slotField slot 33 1 = preset → preset ≤ 31 → (u.chan c).offWaits = false → (u.chan c).pendingRetune = none →
    ((u.chan c).state = .held ∨ (u.chan c).state = .unready → (u.chan c).follower = none →
      ∃ t, exec (.retune slot bus) s = .next t
        ∧ (t.chan c).state = .retuning ∧ (t.chan c).preset = preset ∧ (t.chan c).strobe = some 10
        ∧ (t.chan c).retuneLimit = some (u.store.working.retuneSeconds * 1000) ∧ (t.chan c).retune = some slot
        ∧ ((t.chan c).returnHeld = true ↔ (u.chan c).state = .held) ∧ (t.chan c).key = false
        ∧ (t.chan c).pendingHold = (u.chan c).pendingHold ∧ (t.chan c).line = (u.chan c).line
        ∧ (∀ d, d ≠ c → t.chan d = u.chan d) ∧ t.mem = (takeDocket noBus slot u).mem
        ∧ t.rack = { u.rack with seq := nextSeq u.rack.seq }
        ∧ t.telex = u.telex ∧ t.calendar = u.calendar ∧ t.priority = u.priority)
    ∧ ((u.chan c).state = .keying ∨ (u.chan c).state = .calling ∨ (u.chan c).state = .sending
        ∨ (u.chan c).state = .closing → exec (.retune slot bus) s =
          .next ((takeDocket noBus slot u).setChan c (fun ch => { ch with pendingRetune := some (slot, preset) })))
    ∧ ((u.chan c).state = .hang → exec (.retune slot bus) s =
        .next ((takeDocket noBus slot u).setChan c (fun ch =>
          { ch with pendingRetune := some (slot, preset), pick := .atBoundary })))
    ∧ ((u.chan c).state = .idle → u.pendingRelay c = none → (u.chan c).pendingHold = none →
      (u.chan c).follower = none →
      ∃ t, exec (.retune slot bus) s = .next t ∧ (∀ d, d ≠ c → t.chan d = u.chan d)
        ∧ t.mem = (takeDocket noBus slot u).mem ∧ t.rack = { u.rack with seq := nextSeq u.rack.seq }
        ∧ t.telex = u.telex ∧ t.calendar = u.calendar ∧ t.priority = u.priority
        ∧ (u.store.setup = true → (t.chan c).state = .idle ∧ (t.chan c).pendingRetune = some (slot, preset)
            ∧ (t.chan c).preset = (u.chan c).preset)
        ∧ (u.store.setup = false → (t.chan c).state = .retuning ∧ (t.chan c).preset = preset
            ∧ (t.chan c).strobe = some 10
            ∧ (t.chan c).retuneLimit = some (u.store.working.retuneSeconds * 1000) ∧ (t.chan c).retune = some slot
            ∧ (t.chan c).pendingRetune = none ∧ (t.chan c).returnHeld = false ∧ (t.chan c).key = false))

/-- CLEARFAULT (R31, R158): a FAULTED or LOCKED_OUT channel whose ALARM was absent at the latest check has its fault
count and its quiet period cleared and leaves for IDLE, or for UNREADY while its ready view is ABSENT, or, LOCKED_OUT
and switched OFF, for OFF; the last fault kind is kept. Any other channel is left. That a channel on which no check has
been made since a part reset is freed is the model's choice (notes/assumptions/49.md). -/
def Obligations.ClearfaultFreesChannel : Prop :=
  ∀ (slot : Nat) (c : Chan) (bus : Bus) (s u : State), bus.prompt = [] → s.Hands bus slot (some .clearfault) u →
    u.Calm → Chan.ofNumber (u.slotField slot 32 1) = some c →
    ((u.chan c).state ≠ .faulted → (u.chan c).state ≠ .lockedOut →
      exec (.clearfault slot bus) s = .next (u.answeredAtIntake slot .done none .none))
    ∧ ((u.chan c).state = .faulted ∨ (u.chan c).state = .lockedOut → (u.chan c).line.alarm.level ≠ some true →
        (u.chan c).onAir = none → (u.chan c).follower = none → ((u.chan c).readyView = true → u.NothingFor c) →
        ∃ t, exec (.clearfault slot bus) s = .next t
          ∧ (t.chan c).state = (if (u.chan c).state = .lockedOut ∧ (u.store.working.chan.get c).enabled = false then .off
              else if (u.chan c).readyView = true then .idle else .unready)
          ∧ (t.chan c).line.faults = 0 ∧ (t.chan c).line.quiet = none
          ∧ (t.chan c).line.lastKind = (u.chan c).line.lastKind ∧ (t.chan c).key = false
          ∧ (∀ d, d ≠ c → t.chan d = u.chan d)
          ∧ t.rack = (u.answeredAtIntake slot .done none .none).rack
          ∧ t.telex = u.telex ∧ t.calendar = u.calendar ∧ t.priority = u.priority ∧ t.mem = u.mem)

/-- QUIETEN (R159): refused with BAD_CHANNEL for a channel outside 1 to 6; otherwise answered DONE in any channel state
and in setup mode, and a quiet period with more than 2000 ms left has 2000 ms left; nothing else of the channel
changes. SNAPSHOT (R43): answered DONE at intake in any state, with the six channels as they stand, and nothing else
changes. -/
def Obligations.QuietenAndSnapshot : Prop :=
  (∀ (slot : Nat) (bus : Bus) (s u : State), bus.prompt = [] → s.Hands bus slot (some .quieten) u → u.Calm →
    (Chan.ofNumber (u.slotField slot 32 1) = none →
      exec (.quieten slot bus) s = .next (u.answeredAtIntake slot .refused (some .badChannel) .none))
    ∧ ∀ c, Chan.ofNumber (u.slotField slot 32 1) = some c → ∃ t, exec (.quieten slot bus) s = .next t
      ∧ (∀ n, (u.chan c).line.quiet = some n → (t.chan c).line.quiet = some (if 2000 < n then 2000 else n))
      ∧ ((u.chan c).line.quiet = none → (t.chan c).line.quiet = none)
      ∧ t.setChan c (fun ch => { ch with line := { ch.line with quiet := (u.chan c).line.quiet } })
          = u.answeredAtIntake slot .done none .none)
  ∧ ∀ (slot : Nat) (bus : Bus) (s u : State), bus.prompt = [] → s.Hands bus slot (some .snapshot) u → u.Calm →
    ∃ views, exec (.snapshot slot bus) s = .next (u.answeredAtIntake slot .done none (.snapshot views))
      ∧ ∀ c, (views.get c).state = (u.chan c).state ∧ (views.get c).preset = (u.chan c).preset
          ∧ (views.get c).faults = (u.chan c).line.faults ∧ (views.get c).lastKind = (u.chan c).line.lastKind
          ∧ (views.get c).queued = (u.telex.filter (fun i => i.channel == c)).length
          ∧ (views.get c).onAir = (u.chan c).onAir.map OnAir.slot

/-- SETCLOCK (R6 to R9, R14): the clock takes the new time and is SET, and the docket's DONE is stamped with it; where
the calendar is empty and no channel takes a pick, nothing else changes: no timer moves. The jump over one WAITING
single entry: a forward jump that passes over its start time by no more than its tolerance makes it DUE with what is
left; a backward jump changes nothing of it, unless the new value is its start time, which makes it DUE with its whole
tolerance. The same is said of the SETCLOCK docket itself, with its answer, and of a start time passed over by more
than the tolerance (R8, R113): the repetitions whose latest start lies behind the new value, as many as there are, are
counted MISSED, which is raised; the entry then waits for its next start time, or is DUE with what is left; and where
none is left it ends, answered before the docket. -/
def Obligations.SetclockSetsAndJumps : Prop :=
  (∀ (slot : Nat) (bus : Bus) (s u : State), bus.prompt = [] → s.Hands bus slot (some .setclock) u → u.Calm →
    u.slotField slot 32 4 ≤ 86399999 →
    (∃ t, exec (.setclock slot bus) s = .next t ∧ t.clock = { value := u.slotField slot 32 4, isSet := true }
      ∧ t.store = u.store ∧ t.power = true
      ∧ ∃ a ∈ t.rack.backlog, a.slot = slot ∧ a.result = .done ∧ a.time = u.slotField slot 32 4 ∧ a.noclock = false)
    ∧ (u.calendar = [] → (∀ c, u.takesNoPick c) → exec (.setclock slot bus) s =
      .next (State.answeredAtIntake { u with clock := { value := u.slotField slot 32 4, isSet := true } }
        slot .done none .none)))
  ∧ (∀ (e : CalEntry) (old new : Nat) (s : State), s.calendar = [e] → (∀ c, s.takesNoPick c) →
    e.phase = some .waiting → e.role = .single → e.withdrawn = false → 1 ≤ e.left → old < 86400000 →
    new < 86400000 → e.start < 86400000 → s.clock.value = new →
    (forward old new < 43200000 → 1 ≤ forward old e.start → forward old e.start ≤ forward old new →
      forward e.start new ≤ e.tolerance → ∃ x, (jumpCalendar old new s).calendar = [x] ∧ x.phase = some .due
        ∧ x.e = forward e.start new ∧ x.r = (e.tolerance : Int) - (forward e.start new : Int)
        ∧ x.left = e.left ∧ x.done = e.done ∧ x.start = e.start ∧ x.limitPassed = false)
    ∧ (43200000 ≤ forward old new → e.start ≠ new → jumpCalendar old new s = s)
    ∧ (43200000 ≤ forward old new → e.start = new → ∃ x, (jumpCalendar old new s).calendar = [x]
        ∧ x.phase = some .due ∧ x.e = 0 ∧ x.r = e.tolerance ∧ x.left = e.left ∧ x.out = e.out))
  ∧ ∀ (e : CalEntry) (slot new : Nat) (bus : Bus) (s u : State), bus.prompt = [] →
    s.Hands bus slot (some .setclock) u → u.Calm → u.slotField slot 32 4 = new → new ≤ 86399999 →
    u.clock.value < 86400000 → u.calendar = [e] → (∀ c, u.takesNoPick c) → e.phase = some .waiting → e.role = .single →
    e.withdrawn = false → 1 ≤ e.left → e.start < 86400000 →
    let answered (v t : State) : Prop := t.rack = (State.answeredAtIntake { v with clock := { value := new, isSet := true } }
        slot .done none .none).rack ∧ t.clock = { value := new, isSet := true } ∧ t.telex = u.telex
        ∧ t.priority = u.priority ∧ t.mem = u.mem
    let missing : State := { u with rack := { u.rack with events := u.rack.events ||| Flag.missed.word } }
    let late := forward e.start new
    (43200000 ≤ forward u.clock.value new →
      ∃ t, exec (.setclock slot bus) s = .next t ∧ answered u t
        ∧ (e.start ≠ new → t.calendar = [e])
        ∧ (e.start = new → ∃ x, t.calendar = [x] ∧ x.phase = some .due ∧ x.e = 0 ∧ x.r = e.tolerance
            ∧ x.left = e.left ∧ x.out = e.out))
    ∧ (forward u.clock.value new < 43200000 →
      forward u.clock.value e.start = 0 ∨ forward u.clock.value new < forward u.clock.value e.start →
      ∃ t, exec (.setclock slot bus) s = .next t ∧ answered u t ∧ t.calendar = [e])
    ∧ (∀ k, forward u.clock.value new < 43200000 → 1 ≤ forward u.clock.value e.start →
      forward u.clock.value e.start ≤ forward u.clock.value new → k < e.left →
      (∀ j < k, (e.tolerance : Int) < (late : Int) - (j : Int) * e.interval) →
      (late : Int) - (k : Int) * e.interval ≤ e.tolerance →
      ∃ t x, exec (.setclock slot bus) s = .next t ∧ answered (if k = 0 then u else missing) t ∧ t.calendar = [x]
        ∧ x.done = e.done + k ∧ x.left = e.left - k ∧ x.start = (e.start + k * e.interval) % 86400000
        ∧ (late < k * e.interval → x.phase = some .waiting)
        ∧ (k * e.interval ≤ late → x.phase = some .due ∧ x.e = late - k * e.interval
            ∧ x.r = (e.tolerance : Int) - x.e)
        ∧ (∀ c, x.out.get c = if inMask e.mask c then .pending else .notUsed) ∧ x.limitPassed = false
        ∧ (k ≠ 0 → ∀ c, x.last.get c = if inMask e.mask c then .missed else .notUsed))
    ∧ (forward u.clock.value new < 43200000 → 1 ≤ forward u.clock.value e.start →
      forward u.clock.value e.start ≤ forward u.clock.value new →
      (∀ j < e.left, (e.tolerance : Int) < (late : Int) - (j : Int) * e.interval) →
      ∃ t last result, exec (.setclock slot bus) s = .next t ∧ t.calendar = []
        ∧ answered { missing with rack := { missing.rack with backlog := u.rack.backlog
            ++ [State.takenAnswer { u with clock := { value := new, isSet := true } } e.slot result
              (.bulletin (e.done + e.left) last e.sentCount) true] } } t
        ∧ (∀ c, last.get c = if inMask e.mask c then .missed else .notUsed)
        ∧ (e.sentTally = 0 → result = .failed)
        ∧ (e.sentTally ≠ 0 → (∃ c, inMask e.mask c = true) → result = .partly))

/-- SETUP and SETUP EXIT (R180, R181, R27): SETUP sets the setup flag and copies the working image into the staged one;
SETUP EXIT puts the staged image in force, clears the flag and is answered DONE. An exit that switches channels OFF, in
a part that holds no item and no entry: a channel switched OFF is OFF, LOCKED_OUT excepted, with its pending HOLD, its
pending RETUNE and its retune in progress answered CLOSED and none of them left; a channel that stays ON keeps its
state. An exit that switches one channel OFF, with nothing on the air (R27, R82, R120, R135): the channel, IDLE and HANG
among its states, is OFF with its carrier down, LOCKED_OUT excepted, and no other channel changes its state; every telex
item of the channel ends CLOSED; the channel leaves each entry of the calendar that holds it, NOT_USED there, an entry
left with no channel ends CLOSED, a DUE one whose other channels are all SENT settles, and ends, waits for its next
repetition or is DUE in it, or is caught up to its end, and the others keep their outcomes on their other channels; a
PENDING outcome in the Priority List, and a FAILED one that is not final, becomes NOT_USED, and an entry whose outcomes
are then all final is answered. A channel switched OFF while a relay is on its air (R27) keeps its state, its code and
its relay, ON_AIR, with KEY asserted, its requests answered CLOSED, and awaits its next character boundary; at that
boundary, where neither the chain has ended nor a page read has failed, the relay is cut, NOT_USED there, the carrier
goes down, and the channel is OFF, or LOCKED_OUT with a fault count of 3; the relay is answered if no channel of it is
open any more. An exit that switches one channel ON takes it from OFF to IDLE, its ready view PRESENT, its preset kept,
and into no mask. -/
def Obligations.SetupAndExit : Prop :=
  let closedRequests (c : Chan) (u t : State) : Prop :=
    (t.chan c).pendingHold = none ∧ (t.chan c).pendingRetune = none ∧ (t.chan c).retune = none
    ∧ (∀ k, (u.chan c).pendingHold = some k → ∃ a ∈ t.rack.backlog, a.slot = k ∧ a.result = .closed)
    ∧ (∀ k p, (u.chan c).pendingRetune = some (k, p) → ∃ a ∈ t.rack.backlog, a.slot = k ∧ a.result = .closed)
    ∧ (∀ k, (u.chan c).retune = some k → ∃ a ∈ t.rack.backlog, a.slot = k ∧ a.result = .closed)
  (∀ (slot : Nat) (bus : Bus) (s u : State), bus.prompt = [] → u.Calm →
    (s.Hands bus slot (some .setup) u → u.store.setup = false → (∀ c, (u.chan c).state.busy = false) →
      exec (.setup slot bus) s =
        .next (State.answeredAtIntake { u with store := { u.store with setup := true, staged := some u.store.working } }
          slot .done none .none))
    ∧ (∀ staged, s.Hands bus slot (some .setupExit) u → u.store.setup = true → u.store.staged = some staged →
      ∃ t, exec (.setupExit slot bus) s = .next t
        ∧ t.store = { u.store with working := staged, staged := none, setup := false } ∧ t.clock = u.clock
        ∧ ∃ a ∈ t.rack.backlog, a.slot = slot ∧ a.result = .done ∧ a.expected = .filed))
  ∧ (∀ (slot : Nat) (staged : Image) (bus : Bus) (s u : State), bus.prompt = [] →
    s.Hands bus slot (some .setupExit) u → u.Calm → u.store.setup = true → u.store.staged = some staged →
    u.telex = [] → u.calendar = [] → u.priority = [] → (∀ c, (u.chan c).onAir = none ∧ u.takesNoPick c) →
    (∀ c, (staged.chan.get c).enabled = true → (u.store.working.chan.get c).enabled = true) →
    ∃ t, exec (.setupExit slot bus) s = .next t
      ∧ ∀ c, (t.chan c).state = (if (u.store.working.chan.get c).enabled = true ∧ (staged.chan.get c).enabled = false
            ∧ (u.chan c).state ≠ .lockedOut then .off else (u.chan c).state)
        ∧ ((u.store.working.chan.get c).enabled = true → (staged.chan.get c).enabled = false →
            (u.chan c).state ≠ .lockedOut → closedRequests c u t))
  ∧ (∀ (slot : Nat) (c : Chan) (staged : Image) (bus : Bus) (s u : State), bus.prompt = [] →
    s.Hands bus slot (some .setupExit) u → u.Calm → u.store.setup = true → u.store.staged = some staged →
    u.HoldsOnce → (∀ d, (u.chan d).onAir = none ∧ (u.chan d).follower = none ∧ (d ≠ c → u.takesNoPick d)) →
    (∀ d, d ≠ c → (u.chan d).state = .faulted → u.pendingRelay d = none) →
    (∀ e ∈ u.calendar, e.role = .single ∧ e.withdrawn = false) → (∀ p ∈ u.priority, p.withdrawn = false) →
    (∀ d, (staged.chan.get d).enabled = (if d = c then false else (u.store.working.chan.get d).enabled)) →
    (u.store.working.chan.get c).enabled = true →
    let openOn (p : PrioEntry) (o : ChanOutcome) : Prop :=
      o = .pending ∨ o = .onAir ∨ o = .failed ∧ p.distress = false ∧ p.limitPassed = false
    let out (p : PrioEntry) (d : Chan) : ChanOutcome :=
      if d = c ∧ openOn p (p.out.get d) ∧ p.out.get d ≠ .onAir then .notUsed else p.out.get d
    ∃ t, exec (.setupExit slot bus) s = .next t
      ∧ t.telex = u.telex.filter (fun i => decide (i.channel ≠ c))
      ∧ (∀ i ∈ u.telex, i.channel = c → ∃ a ∈ t.rack.backlog,
          a.slot = i.slot ∧ a.result = .closed ∧ a.progress = i.progress ∧ a.walk = true)
      ∧ (∀ d, d ≠ c → (t.chan d).state = (u.chan d).state)
      ∧ ((u.chan c).state = .lockedOut → (t.chan c).state = .lockedOut)
      ∧ ((u.chan c).state ≠ .lockedOut → (t.chan c).state = .off ∧ (t.chan c).key = false ∧ (t.chan c).tx = none
          ∧ (t.chan c).hang = none ∧ (t.chan c).pick = .none ∧ closedRequests c u t)
      ∧ (∀ e ∈ u.calendar,
          (inMask e.mask c = false → t.entryAt e.slot = some e)
          ∧ (maskChans e.mask = [c] → t.entryAt e.slot = none
              ∧ ∃ a ∈ t.rack.backlog, a.slot = e.slot ∧ a.result = .closed ∧ a.walk = true)
          ∧ (inMask e.mask c = true → (∃ d, d ≠ c ∧ inMask e.mask d = true) →
              (e.phase = some .waiting
                ∨ e.limitPassed = false ∧ ∃ d, d ≠ c ∧ inMask e.mask d = true ∧ e.out.get d ≠ .sent) →
              ∃ x, t.entryAt e.slot = some x ∧ (∀ d, inMask x.mask d = (inMask e.mask d && decide (d ≠ c)))
                ∧ (∀ d, x.out.get d = if d = c then .notUsed else e.out.get d) ∧ x.phase = e.phase
                ∧ x.left = e.left ∧ x.start = e.start)
          ∧ (inMask e.mask c = true → (∃ d, d ≠ c ∧ inMask e.mask d = true) → e.phase = some .due → e.left ≤ 1 →
              (∀ d, d ≠ c → inMask e.mask d = true → e.out.get d = .sent) → t.entryAt e.slot = none
              ∧ ∃ a ∈ t.rack.backlog, a.slot = e.slot ∧ (a.result = .done ∨ a.result = .partly))
          ∧ (inMask e.mask c = true → (∃ d, d ≠ c ∧ inMask e.mask d = true) → e.phase = some .due → 1 < e.left →
              (∀ d, d ≠ c → inMask e.mask d = true → e.out.get d = .sent) →
              (∀ k, k + 1 < e.left → (∀ j < k, (e.tolerance : Int) < (e.e : Int) - (j + 1 : Nat) * e.interval) →
                (e.e : Int) - (k + 1 : Nat) * e.interval ≤ e.tolerance →
                ∃ x, t.entryAt e.slot = some x ∧ (∀ d, inMask x.mask d = (inMask e.mask d && decide (d ≠ c)))
                  ∧ x.done = e.done + 1 + k ∧ x.left = e.left - 1 - k
                  ∧ x.start = (e.start + (k + 1) * e.interval) % 86400000 ∧ x.limitPassed = false
                  ∧ (∀ d, x.out.get d = if inMask e.mask d = true ∧ d ≠ c then .pending else .notUsed)
                  ∧ (e.e < (k + 1) * e.interval → x.phase = some .waiting)
                  ∧ ((k + 1) * e.interval ≤ e.e → x.phase = some .due ∧ x.e = e.e - (k + 1) * e.interval
                      ∧ x.r = (e.tolerance : Int) - x.e)
                  ∧ (∀ d, x.last.get d = if inMask e.mask d = true ∧ d ≠ c then (if k = 0 then .sent else .missed)
                      else .notUsed))
              ∧ ((∀ j < e.left - 1, (e.tolerance : Int) < (e.e : Int) - (j + 1 : Nat) * e.interval) →
                t.entryAt e.slot = none ∧ ∃ a ∈ t.rack.backlog, a.slot = e.slot ∧ a.result = .partly ∧ a.walk = true)))
      ∧ (∀ p ∈ u.priority,
          ((∃ d, openOn p (out p d)) → ∃ x, t.prioAt p.slot = some x ∧ ∀ d, x.out.get d = out p d)
          ∧ ((∀ d, ¬ openOn p (out p d)) → t.prioAt p.slot = none ∧ ∃ a ∈ t.rack.backlog, a.slot = p.slot
              ∧ (∃ o, a.progress = .priority o ∧ ∀ d, o.get d = out p d)
              ∧ ((∀ d, out p d = .notUsed) → a.result = .closed))))
  ∧ (∀ (slot : Nat) (c : Chan) (staged : Image) (a : OnAir) (p : PrioEntry) (bus : Bus) (s u : State),
    bus.prompt = [] → s.Hands bus slot (some .setupExit) u → u.Calm → u.store.setup = true →
    u.store.staged = some staged → u.HoldsOnce → (u.chan c).onAir = some a → a.kind = .distress →
    (u.chan c).state = .sending ∨ (u.chan c).state = .faulted → (u.chan c).follower = none →
    u.prioAt a.slot = some p → p.distress = true → p.withdrawn = false → p.out.get c = .onAir →
    (∀ d, d ≠ c → u.takesNoPick d ∧ ((u.chan d).state = .faulted → u.pendingRelay d = none)) →
    (∀ d, (staged.chan.get d).enabled = (if d = c then false else (u.store.working.chan.get d).enabled)) →
    (u.store.working.chan.get c).enabled = true →
    ∃ t x, exec (.setupExit slot bus) s = .next t ∧ (t.chan c).offWaits = true
      ∧ (t.chan c).state = (u.chan c).state ∧ (t.chan c).key = true ∧ (t.chan c).onAir = some a
      ∧ (t.chan c).tx = (u.chan c).tx ∧ (t.chan c).period = (u.chan c).period ∧ closedRequests c u t
      ∧ t.prioAt a.slot = some x ∧ (∀ d, x.out.get d = p.out.get d)
      ∧ t.telex = u.telex.filter (fun i => decide (i.channel ≠ c)))
  ∧ (∀ (c : Chan) (a : OnAir) (p : PrioEntry) (b : BodyReading) (bus : Bus) (s : State), s.power = true →
    bus.prompt = [] → bus.writes = [] → s.Calm → (s.chan c).offWaits = true →
    (s.store.working.chan.get c).enabled = false → (s.chan c).onAir = some a → a.kind = .distress →
    (s.chan c).state = .sending ∨ (s.chan c).state = .faulted → (s.chan c).segment = none →
    (s.chan c).period = some 0 → (s.chan c).fetch.body = some b → b.complete = false → b.failed = false →
    (s.chan c).follower = none → s.prioAt a.slot = some p → p.distress = true → p.withdrawn = false →
    p.out.get c = .onAir →
    let out (d : Chan) : ChanOutcome := if d = c then .notUsed else p.out.get d
    let ended (t : State) : Prop :=
      (t.chan c).state = (if (s.chan c).line.faults = 3 then .lockedOut else .off) ∧ (t.chan c).key = false
      ∧ (t.chan c).lowpwr = false ∧ (t.chan c).tx = none ∧ (t.chan c).onAir = none ∧ (t.chan c).offWaits = false
      ∧ t.telex = s.telex ∧ t.calendar = s.calendar ∧ t.clock = s.clock ∧ t.mem = s.mem
    ((∃ d, d ≠ c ∧ (p.out.get d = .pending ∨ p.out.get d = .onAir)) →
      ∃ t x, exec (.characterBoundary c bus) s = .next t ∧ ended t ∧ t.prioAt a.slot = some x
        ∧ (∀ d, x.out.get d = out d) ∧ t.rack = s.rack ∧ (∀ d, d ≠ c → t.chan d = s.chan d))
    ∧ ((∀ d, d ≠ c → p.out.get d ≠ .pending ∧ p.out.get d ≠ .onAir) →
      ∃ t x o, exec (.characterBoundary c bus) s = .next t ∧ ended t ∧ t.prioAt a.slot = none
        ∧ t.rack.backlog = s.rack.backlog ++ [x] ∧ x.slot = a.slot ∧ x.walk = true ∧ x.progress = .priority o
        ∧ (∀ d, o.get d = out d) ∧ ((∀ d, out d = .notUsed) → x.result = .closed)))
  ∧ ∀ (slot : Nat) (c : Chan) (staged : Image) (bus : Bus) (s u : State), bus.prompt = [] →
    s.Hands bus slot (some .setupExit) u → u.Calm → u.store.setup = true → u.store.staged = some staged →
    (∀ d, d ≠ c → u.takesNoPick d ∧ ((u.chan d).state = .faulted → u.pendingRelay d = none)) →
    (∀ p ∈ u.priority, p.withdrawn = false ∧ ∃ d, p.out.get d = .pending ∨ p.out.get d = .onAir) →
    (∀ d, (staged.chan.get d).enabled = (decide (d = c) || (u.store.working.chan.get d).enabled)) →
    (u.store.working.chan.get c).enabled = false → (u.chan c).state = .off → u.NothingFor c →
    ∃ t, exec (.setupExit slot bus) s = .next t ∧ (t.chan c).state = .idle ∧ (t.chan c).readyView = true
      ∧ (t.chan c).preset = (u.chan c).preset ∧ (t.chan c).key = false
      ∧ (∀ d, d ≠ c → (t.chan d).state = (u.chan d).state)
      ∧ t.telex = u.telex ∧ t.calendar = u.calendar ∧ t.priority = u.priority

/-- SETTINGS READ (R183): the two blocks hold the working image with its key as eight 0x00 codes and the checksum of
what was written; every other byte of host memory is as it was; the docket is answered DONE with 0 values clamped. That
addresses wrap at 2^32 is the model's choice (notes/assumptions/4.md). SETTINGS WRITE in setup mode (R182): the staged
image is the one the two blocks spell, and the answer reports how many fields were clamped. A transfer that ends in a
bus error raises BUSERR and is answered BUS_FAULT, with the images as they were; that this answer leaves the values
clamped field unwritten is the model's choice (notes/assumptions/74.md). A COMMIT with the protection level
OPEN, or KEYED and the key right, is taken (R184): the working image is what is being written. -/
def Obligations.SettingsAndCommitDockets : Prop :=
  (∀ (slot : Nat) (bus : Bus) (s u : State), bus.prompt = [] → s.Hands bus slot (some .settingsRead) u → u.Calm →
    u.MemoryCanonical → 1 ≤ u.slotField slot 32 2 → u.slotField slot 32 2 ≤ 4094 →
    let written := Image.bytes { u.store.working with key := List.replicate 8 0 }
    (bus.errors = [] → ∃ t, exec (.settingsRead slot bus) s = .next t
      ∧ t.readBytes u.rack.pageBase (256 * u.slotField slot 32 2) 512 = written
      ∧ (∀ a, (∀ k < 512, a ≠ busAddress u.rack.pageBase (256 * u.slotField slot 32 2 + k)) →
          Mem.read t.mem a = Mem.read u.mem a)
      ∧ { t with mem := u.mem } = u.answeredAtIntake slot .done none (.clamped 0))
    ∧ ∀ n, Access.imageWrite n ∈ bus.errors → ∃ t, exec (.settingsRead slot bus) s = .next t
      ∧ { t with mem := u.mem } = State.answeredAtIntake
          { u with rack := { u.rack with events := u.rack.events ||| Flag.busErr.word } } slot .busFault none .none)
  ∧ ∀ (slot : Nat) (bus : Bus) (s u : State), bus.prompt = [] → u.Calm →
    (s.Hands bus slot (some .settingsWrite) u → u.store.setup = true → 1 ≤ u.slotField slot 32 2 →
      u.slotField slot 32 2 ≤ 4094 →
      let read := u.readBytes u.rack.pageBase (256 * u.slotField slot 32 2) 512
      (bus.errors = [] → exec (.settingsWrite slot bus) s =
        .next (State.answeredAtIntake { u with store := { u.store with staged := some (imageOfBytes read) } }
          slot .done none (.clamped (clampedCount read))))
      ∧ (Access.imageRead ∈ bus.errors → exec (.settingsWrite slot bus) s =
        .next (State.answeredAtIntake { u with rack := { u.rack with events := u.rack.events ||| Flag.busErr.word } }
          slot .busFault none .none)))
    ∧ (bus.errors = [] → s.Hands bus slot (some .commit) u → u.store.commit = none →
      u.store.protection = .openLevel ∨ (u.store.protection = .keyed ∧ u.slotBytes slot 32 8 = u.store.key) →
      exec (.commit slot bus) s = .next { takeDocket noBus slot u with
        store := { u.store with commit := some { slot := slot, copy := u.store.working, elapsed := 0 } } })

/-- The 512 bytes of an image whose fields lie in their ranges spell that image again, none of its fields is clamped,
and bytes 0 to 509 with the checksum after them sum to 65,535 modulo 65,536 (chapter 11.2, R182). Any 512 bytes spell
an image in range: a number is taken to the nearer limit of its range, a code or an on-off field above its highest code
takes the highest, and a mask loses the bits it has no position for; each field outside its range is counted once. The
fields are listed as offset, size, lowest and highest value; those of a channel and of a series from its own
offset. -/
def Obligations.ImageBytesReadBackAndClamp : Prop :=
  (∀ img : Image, img.InRange → img.bytes.length = 512 ∧ imageOfBytes img.bytes = img ∧ clampedCount img.bytes = 0
    ∧ ((img.body.map BitVec.toNat).sum + img.checksum.toNat) % 65536 = 65535)
  ∧ ∀ b : List Byte, b.length = 512 →
    let field (off size : Nat) : Nat := leNat ((b.drop off).take size)
    let near (off size lo hi : Nat) : Nat := max lo (min hi (field off size))
    let img := imageOfBytes b
    img.InRange
    ∧ img.sweepInterval = near 0 2 5 200 ∧ img.alarmDelay = near 2 1 1 50 ∧ img.callAttempts = near 3 1 1 5
    ∧ img.recoveryDelay = near 4 2 10 500 ∧ img.quietSeconds = near 6 1 1 60 ∧ img.retuneSeconds = near 7 1 5 120
    ∧ img.answerbackSeconds = near 8 1 2 30 ∧ img.starvationSeconds = near 9 1 1 60 ∧ img.urgentMinutes = near 10 1 1 120
    ∧ img.lineEnd.toNat = field 11 1 ∧ img.idle.toNat = field 12 1 ∧ img.request.toNat = field 13 1
    ∧ img.attentionMask.toNat = field 14 2 % 1024 ∧ img.protection.code.toNat = near 16 1 0 2
    ∧ img.cutLength = near 17 1 0 32 ∧ img.resumeLength = near 18 1 0 32 ∧ img.signoffLength = near 19 1 0 32
    ∧ img.key = (b.drop 20).take 8 ∧ img.cutCodes = (b.drop 28).take 32 ∧ img.resumeCodes = (b.drop 60).take 32
    ∧ img.signoffCodes = (b.drop 92).take 32
    ∧ (∀ c : Chan, let k := img.chan.get c; let at0 := 128 + 16 * c.index
        (boolCode k.enabled).toNat = near at0 1 0 1 ∧ k.aux.code.toNat = near (at0 + 1) 1 0 2
        ∧ k.period = near (at0 + 2) 2 10 300 ∧ k.lead = near (at0 + 4) 2 0 5000 ∧ k.hang = near (at0 + 6) 2 0 30000
        ∧ k.edge.code.toNat = near (at0 + 8) 1 0 2 ∧ (boolCode k.reduced).toNat = near (at0 + 9) 1 0 1
        ∧ k.startPreset = near (at0 + 10) 1 0 31)
    ∧ (∀ n < 16, ∃ k, img.series[n]? = some k ∧ (boolCode k.enabled).toNat = near (224 + 4 * n) 1 0 1
        ∧ k.guardSeconds = near (224 + 4 * n + 1) 1 0 120 ∧ k.allowed.toNat = field (224 + 4 * n + 2) 1 % 64)
    ∧ clampedCount b =
      (([(0, 2, 5, 200), (2, 1, 1, 50), (3, 1, 1, 5), (4, 2, 10, 500), (6, 1, 1, 60), (7, 1, 5, 120), (8, 1, 2, 30),
          (9, 1, 1, 60), (10, 1, 1, 120), (14, 2, 0, 1023), (16, 1, 0, 2), (17, 1, 0, 32), (18, 1, 0, 32), (19, 1, 0, 32)]
        ++ Chan.all.flatMap (fun (c : Chan) =>
          [(0, 1, 0, 1), (1, 1, 0, 2), (2, 2, 10, 300), (4, 2, 0, 5000), (6, 2, 0, 30000), (8, 1, 0, 2), (9, 1, 0, 1),
            (10, 1, 0, 31)].map (fun (f : Nat × Nat × Nat × Nat) => (128 + 16 * c.index + f.1, f.2)))
        ++ (List.range 16).flatMap (fun n =>
          [(0, 1, 0, 1), (1, 1, 0, 120), (2, 1, 0, 63)].map
            (fun (f : Nat × Nat × Nat × Nat) => (224 + 4 * n + f.1, f.2)))).filter
        (fun (f : Nat × Nat × Nat × Nat) =>
          decide (field f.1 f.2.1 < f.2.2.1 ∨ f.2.2.2 < field f.1 f.2.1))).length

/-! ## On the air -/

/-- CHARACTER_BOUNDARY within a line of a telex item (R16, R64, R77): the text code that ended is counted, and the next
code of the line begins with its character period. Within the resume notice the next code of the notice begins, and at
its end the first line, at the text position and with no further test (R63); that a boundary whose period has not run out brings nothing is the
model's choice (notes/assumptions/1.md). -/
def Obligations.TextCodeFollowsTextCode : Prop :=
  ∀ (c : Chan) (item : TelexItem) (code : Byte) (more : List Byte) (bus : Bus) (s : State), s.power = true →
    bus.prompt = [] → bus.writes = [] → s.Calm →
    ((s.chan c).period ≠ some 0 → exec (.characterBoundary c bus) s = .next s)
    ∧ ((s.chan c).period = some 0 → (s.chan c).state = .sending → (s.chan c).segment = some .text →
      (s.chan c).waiting = false → s.Undisturbed c → s.telexOn c = some item →
      (s.chan c).tx.map Tx.kind = some .text → (s.chan c).rest = code :: more →
      exec (.characterBoundary c bus) s = .next ((s.setTelex item.slot TelexItem.codeSent).setChan c (fun ch =>
        { ch with
          textPosition := ch.textPosition + 1, rest := more, tx := some { kind := .text, code := code }
          period := some ch.item.period })))
    ∧ ((s.chan c).period = some 0 → (s.chan c).state = .sending → (s.chan c).segment = some .resumeNotice →
      s.Undisturbed c →
      ((s.chan c).rest = code :: more → exec (.characterBoundary c bus) s = .next (s.setChan c (fun ch =>
        { ch with rest := more, tx := some { kind := .notice, code := code }, period := some ch.item.period })))
      ∧ (∀ rd final, (s.chan c).rest = [] → (s.chan c).fetch.reading = some rd → rd.condition = .settled final →
        rd.line = code :: more → ∃ t, exec (.characterBoundary c bus) s = .next t
          ∧ (t.chan c).segment = some .text ∧ (t.chan c).tx = some { kind := .text, code := code }
          ∧ (t.chan c).rest = more ∧ (t.chan c).lineFinal = final
          ∧ (t.chan c).textPosition = (s.chan c).textPosition ∧ t.telex = s.telex ∧ t.rack = s.rack
          ∧ (∀ d, d ≠ c → t.chan d = s.chan d)))

/-- CHARACTER_BOUNDARY at a break point (R46, R52 to R55, R58): the offset is reported. With a preemption source
present the item is cut and the first code of the cut notice begins. With none, a settled next line begins at this same
boundary if its need, (L + C or Z) × P, fits in A or the channel is unbounded, and otherwise the item is cut. A
lookahead still in progress or BLOCKED begins the lookahead wait, with the idle code, unless A is at or below (C + 1) ×
P, which cuts. An ENDING item is cut there whatever else holds, to end WITHDRAWN, and one with a decided end, to end with
it (R52 step 2, R57, R81). When the cut notice has been sent, the item leaves with the result fixed at the cut: it is
answered with that result, or becomes INTERRUPTED where none was fixed but that; the channel, for which nothing else
waits, is in HANG (R55, R18). -/
def Obligations.BreakPointCutsOrContinues : Prop :=
  (∀ (c : Chan) (item : TelexItem) (bus : Bus) (s : State), s.power = true → bus.prompt = [] → bus.writes = [] →
    bus.errors = [] → s.Calm → (s.chan c).period = some 0 → (s.chan c).state = .sending →
    (s.chan c).segment = some .text → (s.chan c).waiting = false → s.Undisturbed c → s.telexOn c = some item →
    (s.chan c).tx.map Tx.kind = some .text → (s.chan c).rest = [] → (s.chan c).lineFinal = false →
    let cutWith (fixed : Fixed) (t : State) : Prop := ∀ code more, (s.chan c).item.cut = code :: more →
      (t.chan c).state = .sending ∧ (t.chan c).segment = some .cutNotice
      ∧ (t.chan c).tx = some { kind := .notice, code := code } ∧ (t.chan c).rest = more
      ∧ (t.chan c).fixed = some fixed ∧ (t.chan c).fetch.reading = none
      ∧ (t.chan c).period = some (s.chan c).item.period
      ∧ (∃ i, t.telexAt item.slot = some i ∧ i.offset = (s.chan c).textPosition + 1
          ∧ i.cuts = (if item.cuts < 255 then item.cuts + 1 else item.cuts))
      ∧ (∀ d, d ≠ c → t.chan d = s.chan d) ∧ t.rack.backlog = s.rack.backlog
    let isCut : State → Prop := cutWith .interrupted
    let plain : Prop := item.state = .onAir ∧ (s.chan c).decided = none
    (item.state = .ending → ∃ t, exec (.characterBoundary c bus) s = .next t ∧ cutWith (.ends .withdrawn) t)
    ∧ (∀ r, item.state = .onAir → (s.chan c).decided = some r →
      ∃ t, exec (.characterBoundary c bus) s = .next t ∧ cutWith (.ends r) t)
    ∧ (plain → s.preempted c = true → ∃ t, exec (.characterBoundary c bus) s = .next t ∧ isCut t)
    ∧ (∀ rd final need, plain → s.preempted c = false → (s.chan c).fetch.reading = some rd → rd.condition = .settled final →
      need = (rd.line.length + (if final = true then (s.chan c).item.signoff.length else (s.chan c).item.cut.length))
        * (s.chan c).item.period →
      (∀ code more, rd.line = code :: more → (∀ a, s.available c = some a → (need : Int) ≤ a) →
        ∃ t i, exec (.characterBoundary c bus) s = .next t ∧ (t.chan c).state = .sending
          ∧ (t.chan c).segment = some .text ∧ (t.chan c).tx = some { kind := .text, code := code }
          ∧ (t.chan c).rest = more ∧ (t.chan c).lineFinal = final
          ∧ (t.chan c).textPosition = (s.chan c).textPosition + 1
          ∧ t.telexAt item.slot = some i ∧ i.offset = (s.chan c).textPosition + 1 ∧ i.cuts = item.cuts
          ∧ (∀ d, d ≠ c → t.chan d = s.chan d) ∧ t.rack.backlog = s.rack.backlog)
      ∧ (∀ a, s.available c = some a → a < (need : Int) →
        ∃ t, exec (.characterBoundary c bus) s = .next t ∧ isCut t))
    ∧ (∀ rd threshold, plain → s.preempted c = false → (s.chan c).fetch.reading = some rd →
      rd.condition = .inProgress ∨ rd.condition = .blocked →
      threshold = ((s.chan c).item.cut.length + 1) * (s.chan c).item.period →
      ((∀ a, s.available c = some a → (threshold : Int) < a) →
        ∃ t i, exec (.characterBoundary c bus) s = .next t ∧ (t.chan c).state = .sending
          ∧ (t.chan c).segment = some .text ∧ (t.chan c).waiting = true ∧ (t.chan c).fetch.reading = some rd
          ∧ (t.chan c).tx = some { kind := .idle, code := (s.chan c).item.idle }
          ∧ (t.chan c).fetch.starvation = (if rd.condition = .blocked
              then some (s.store.working.starvationSeconds * 1000) else none)
          ∧ t.telexAt item.slot = some i ∧ i.offset = (s.chan c).textPosition + 1 ∧ i.cuts = item.cuts
          ∧ (∀ d, d ≠ c → t.chan d = s.chan d) ∧ t.rack.backlog = s.rack.backlog)
      ∧ (∀ a, s.available c = some a → a ≤ (threshold : Int) →
        ∃ t, exec (.characterBoundary c bus) s = .next t ∧ isCut t)))
  ∧ ∀ (c : Chan) (item : TelexItem) (bus : Bus) (s : State), s.power = true → bus.prompt = [] → bus.writes = [] →
    s.Calm → (s.chan c).period = some 0 → (s.chan c).state = .sending → (s.chan c).segment = some .cutNotice →
    (s.chan c).rest = [] → (s.chan c).fetch.reading = none → s.NothingBehind c item → (s.chan c).item.hang ≠ 0 →
    let hangs (t : State) : Prop :=
      (t.chan c).state = .hang ∧ (t.chan c).hang = some (s.chan c).item.hang ∧ (t.chan c).onAir = none
      ∧ (t.chan c).segment = none ∧ (t.chan c).fixed = none ∧ (t.chan c).key = true
      ∧ (t.chan c).tx = some { kind := .idle, code := (s.chan c).item.idle } ∧ (∀ d, d ≠ c → t.chan d = s.chan d)
    ((s.chan c).fixed = some .interrupted → ∃ t, exec (.characterBoundary c bus) s = .next t ∧ hangs t
      ∧ t.telexAt item.slot = some { item with state := .interrupted } ∧ t.rack = s.rack)
    ∧ (∀ r, (s.chan c).fixed = some (.ends r) → ∃ t, exec (.characterBoundary c bus) s = .next t ∧ hangs t
      ∧ t.telex = s.telex.filter (fun x => x.slot != item.slot)
      ∧ t.rack.backlog = s.rack.backlog ++ [s.takenAnswer item.slot r item.progress true])

/-- CHARACTER_BOUNDARY at the end of a final line and of the signoff (R61, R62, R76, R93, R26): the signoff follows the
line. When it has been sent, a collective item ends DONE, and an addressed one has its closing check, which begins with
the request code, if P + Tab fits in A or the channel is unbounded, and otherwise ends UNCONFIRMED. An ENDING item has
its signoff like any other and ends WITHDRAWN at its end, and one with a decided end ends with that, neither with a
closing check (R61, R62, R81). A channel whose item has ended, and for which nothing else waits, is in HANG with its
carrier up. -/
def Obligations.FinalLineSignoffAndHang : Prop :=
  ∀ (c : Chan) (item : TelexItem) (bus : Bus) (s : State), s.power = true → bus.prompt = [] → bus.writes = [] →
    bus.errors = [] → s.Calm → (s.chan c).period = some 0 → (s.chan c).state = .sending → (s.chan c).rest = [] →
    s.NothingBehind c item →
    let hangs (result : Result) (t : State) : Prop :=
      (t.chan c).state = .hang ∧ (t.chan c).hang = some (s.chan c).item.hang ∧ (t.chan c).onAir = none
      ∧ (t.chan c).key = true ∧ (t.chan c).tx = some { kind := .idle, code := (s.chan c).item.idle }
      ∧ t.telex = s.telex.filter (fun x => x.slot != item.slot)
      ∧ t.rack.backlog = s.rack.backlog ++ [s.takenAnswer item.slot result item.progress true]
      ∧ (∀ d, d ≠ c → t.chan d = s.chan d)
    (∀ code more, (s.chan c).segment = some .text → (s.chan c).waiting = false → (s.chan c).lineFinal = true →
      (s.chan c).item.signoff = code :: more → (s.chan c).tx.map Tx.kind = some .text →
      ∃ t i, exec (.characterBoundary c bus) s = .next t ∧ (t.chan c).segment = some .signoff
        ∧ (t.chan c).tx = some { kind := .notice, code := code } ∧ (t.chan c).rest = more
        ∧ t.telexAt item.slot = some i ∧ i.offset = (s.chan c).textPosition + 1 ∧ i.state = item.state
        ∧ (t.chan c).decided = (s.chan c).decided ∧ t.rack.backlog = s.rack.backlog)
    ∧ ((s.chan c).segment = some .signoff → item.state = .ending → (s.chan c).item.hang ≠ 0 →
      ∃ t, exec (.characterBoundary c bus) s = .next t ∧ hangs .withdrawn t)
    ∧ (∀ r, (s.chan c).segment = some .signoff → item.state = .onAir → (s.chan c).decided = some r →
      (s.chan c).item.hang ≠ 0 → ∃ t, exec (.characterBoundary c bus) s = .next t ∧ hangs r t)
    ∧ ((s.chan c).segment = some .signoff → item.state = .onAir → (s.chan c).decided = none →
      (s.chan c).item.hang ≠ 0 →
      (item.callCode = [] → ∃ t, exec (.characterBoundary c bus) s = .next t ∧ hangs .done t)
      ∧ (∀ need, item.callCode ≠ [] →
        need = (s.chan c).item.period + s.store.working.answerbackSeconds * 1000 →
        ((∀ a, s.available c = some a → (need : Int) ≤ a) → ∃ t, exec (.characterBoundary c bus) s = .next t
          ∧ (t.chan c).state = .closing ∧ (t.chan c).call.mode = some .closing
          ∧ (t.chan c).call.condition = .transmit ∧ (t.chan c).call.window = []
          ∧ (t.chan c).tx = some { kind := .call, code := (s.chan c).item.request } ∧ (t.chan c).rest = []
          ∧ t.telex = s.telex ∧ t.rack = s.rack ∧ (∀ d, d ≠ c → t.chan d = s.chan d))
        ∧ (∀ a, s.available c = some a → a < (need : Int) →
          ∃ t, exec (.characterBoundary c bus) s = .next t ∧ hangs .unconfirmed t)))

/-- CHARACTER_BOUNDARY at the end of a relay on the one channel of its mask (R18, R129, R140, R141): after the last
code of its chain its outcome is SENT and it is answered DONE; where a page read has failed, it ends at this boundary,
FAILED, and is answered FAILED. Either way it leaves the Priority List with an answer that waits for its marking walk,
and the channel, for which nothing waits, is in HANG. -/
def Obligations.RelayEndsSentOrFailed : Prop :=
  ∀ (c : Chan) (a : OnAir) (e : PrioEntry) (b : BodyReading) (bus : Bus) (s : State), s.power = true →
    bus.prompt = [] → bus.writes = [] → s.Calm → (s.chan c).period = some 0 → (s.chan c).state = .sending →
    (s.chan c).segment = none → (s.chan c).onAir = some a → a.kind = .distress → a.slot = e.slot →
    s.priority = [e] → e.distress = true → e.withdrawn = false → maskChans e.mask = [c] →
    (∀ d, e.out.get d = if d = c then .onAir else .notUsed) →
    (s.chan c).fetch.body = some b →
    (s.chan c).offWaits = false → (s.chan c).stopAtBoundary = false → (s.chan c).pendingHold = none →
    (s.chan c).pendingRetune = none → (s.chan c).follower = none → s.dueEntry c = none → s.head c = none →
    (s.chan c).item.hang ≠ 0 →
    let ends (result : Result) (o : ChanOutcome) : Prop :=
      ∃ t x, exec (.characterBoundary c bus) s = .next t ∧ (t.chan c).state = .hang ∧ (t.chan c).onAir = none
      ∧ (t.chan c).hang = some (s.chan c).item.hang
      ∧ (t.chan c).tx = some { kind := .idle, code := (s.chan c).item.idle } ∧ t.priority = []
      ∧ t.rack.backlog = s.rack.backlog ++ [s.takenAnswer e.slot result (.priority x) true] ∧ x.get c = o
      ∧ (t.chan c).fetch.walks = (s.chan c).fetch.walks ++ [{ slot := e.slot, page := e.firstPage, limit := 64 }]
      ∧ t.mem = s.mem ∧ t.telex = s.telex ∧ t.calendar = s.calendar ∧ (∀ d, d ≠ c → t.chan d = s.chan d)
    (b.complete = true → (s.chan c).tx.map Tx.kind = some .body → ends .done .sent)
    ∧ (b.complete = false → b.failed = true → ends .failed .failed)

/-- CHARACTER_BOUNDARY with a relay or a stop-key edge waiting, within a line of a telex item (R19, R20, R32, R34): the
item is handed back INTERRUPTED with its offset as it was; the relay takes the channel with no lead, or the channel
enters HELD with its carrier down. -/
def Obligations.RelayOrStopKeyCutsTelex : Prop :=
  ∀ (c : Chan) (item : TelexItem) (bus : Bus) (s : State), s.power = true → bus.prompt = [] → bus.writes = [] →
    s.Calm → (s.chan c).period = some 0 → (s.chan c).state = .sending → (s.chan c).segment = some .text →
    (s.chan c).waiting = false → (s.chan c).rest ≠ [] → s.telexOn c = some item → item.state = .onAir →
    (s.chan c).fixed = none → (s.chan c).decided = none → (s.chan c).offWaits = false →
    (∀ e, (s.chan c).stopAtBoundary = false → s.pendingRelay c = some e →
      ∃ t i x, exec (.characterBoundary c bus) s = .next t ∧ (t.chan c).state = .sending ∧ (t.chan c).key = true
        ∧ (t.chan c).onAir = some { kind := .distress, slot := e.slot, repetition := 0, resumed := false }
        ∧ (t.chan c).segment = none ∧ (t.chan c).tx.map Tx.kind = some .idle
        ∧ t.telexAt item.slot = some i ∧ i.state = .interrupted ∧ i.offset = item.offset
        ∧ i.cuts = (if item.cuts < 255 then item.cuts + 1 else item.cuts)
        ∧ t.prioAt e.slot = some x ∧ x.out.get c = .onAir ∧ (∀ d, d ≠ c → t.chan d = s.chan d))
    ∧ ((s.chan c).stopAtBoundary = true → s.pendingRelay c = none → (s.chan c).pendingHold = none →
      (s.chan c).pendingRetune = none → (s.chan c).follower = none →
      ∃ t i, exec (.characterBoundary c bus) s = .next t ∧ (t.chan c).state = .held ∧ (t.chan c).key = false
        ∧ (t.chan c).tx = none ∧ (t.chan c).onAir = none ∧ (t.chan c).stopAtBoundary = false
        ∧ t.telexAt item.slot = some i ∧ i.state = .interrupted ∧ i.offset = item.offset
        ∧ (∀ d, d ≠ c → t.chan d = s.chan d))

/-- KEY_UP_LEAD_EXPIRY (R25, R23, R85, R86, R140), with no cause waiting to cut the channel: a bulletin, urgent
bulletin or relay begins with its first code, or with the idle code while its page has not come; a telex item with a
call enters CALLING with the first code of its call code; a collective one that was INTERRUPTED begins the resume notice
where there is one (R63), and otherwise, like one that was not, its first line, from the resume offset. -/
def Obligations.LeadExpiryBeginsItem : Prop :=
  ∀ (c : Chan) (a : OnAir) (bus : Bus) (s : State), s.power = true → bus.prompt = [] → bus.writes = [] → s.Calm →
    (s.chan c).lead = some 0 → (s.chan c).state = .keying → s.Undisturbed c → (s.chan c).onAir = some a →
    (∀ b, a.kind ≠ .telex → (s.chan c).fetch.body = some b →
      ∃ t, exec (.keyUpLeadExpiry c bus) s = .next t ∧ (t.chan c).state = .sending ∧ (t.chan c).lead = none
        ∧ (t.chan c).onAir = some a ∧ (t.chan c).period = some (s.chan c).item.period
        ∧ (∀ code b1, b.take = some (code, b1) → (t.chan c).tx = some { kind := .body, code := code }
            ∧ (t.chan c).fetch.body = some b1)
        ∧ (b.take = none → (t.chan c).tx = some { kind := .idle, code := (s.chan c).item.idle })
        ∧ (∀ d, d ≠ c → t.chan d = s.chan d))
    ∧ (∀ item code more, a.kind = .telex → s.telexAt a.slot = some item → item.callCode = code :: more →
      ∃ t, exec (.keyUpLeadExpiry c bus) s = .next t ∧ (t.chan c).state = .calling ∧ (t.chan c).lead = none
        ∧ (t.chan c).tx = some { kind := .call, code := code }
        ∧ (t.chan c).rest = more ++ [(s.chan c).item.request] ∧ (t.chan c).call.condition = .transmit
        ∧ (t.chan c).call.mode = some .opening ∧ (t.chan c).call.attempts = 0
        ∧ (t.chan c).call.resumed = some a.resumed ∧ (∀ d, d ≠ c → t.chan d = s.chan d))
    ∧ (∀ item code more, a.kind = .telex → a.resumed = true → s.telexAt a.slot = some item → item.callCode = [] →
      (s.chan c).item.resume = code :: more →
      ∃ t, exec (.keyUpLeadExpiry c bus) s = .next t ∧ (t.chan c).state = .sending ∧ (t.chan c).lead = none
        ∧ (t.chan c).segment = some .resumeNotice ∧ (t.chan c).tx = some { kind := .notice, code := code }
        ∧ (t.chan c).rest = more ∧ (t.chan c).textPosition = item.offset
        ∧ (t.chan c).fetch.reading = (s.chan c).fetch.reading ∧ t.telex = s.telex ∧ t.rack = s.rack
        ∧ (∀ d, d ≠ c → t.chan d = s.chan d))
    ∧ (∀ item rd code more final, a.kind = .telex → a.resumed = false ∨ (s.chan c).item.resume = [] →
      s.telexAt a.slot = some item → item.callCode = [] → (s.chan c).fetch.reading = some rd → rd.condition = .settled final →
      rd.line = code :: more →
      ∃ t, exec (.keyUpLeadExpiry c bus) s = .next t ∧ (t.chan c).state = .sending
        ∧ (t.chan c).segment = some .text ∧ (t.chan c).tx = some { kind := .text, code := code }
        ∧ (t.chan c).rest = more ∧ (t.chan c).lineFinal = final ∧ (t.chan c).textPosition = item.offset
        ∧ (∀ d, d ≠ c → t.chan d = s.chan d))

/-- HANG_EXPIRY (R26, R32): with nothing waiting the channel enters IDLE, or UNREADY while its ready view is ABSENT,
with its carrier down; with a stop-key edge waiting it enters HELD; that with its hang timer running nothing happens is
the model's choice (notes/assumptions/1.md). -/
def Obligations.HangExpiryDropsCarrier : Prop :=
  ∀ (c : Chan) (bus : Bus) (s : State), s.power = true → bus.prompt = [] → bus.writes = [] → s.Calm →
    (s.chan c).state = .hang →
    ((s.chan c).hang ≠ some 0 → exec (.hangExpiry c bus) s = .next s)
    ∧ ((s.chan c).hang = some 0 → s.Undisturbed c → s.NothingFor c → exec (.hangExpiry c bus) s =
        .next (s.setChan c (Channel.enter (if (s.chan c).readyView then .idle else .unready))))
    ∧ ((s.chan c).hang = some 0 → (s.chan c).offWaits = false → (s.chan c).stopAtBoundary = true → s.NothingFor c →
        exec (.hangExpiry c bus) s =
          .next (s.setChan c (fun ch => { ch.enter .held with stopAtBoundary := false })))

/-- TUNE_STROBE_EXPIRY, PAGE_REREAD_TIMER_EXPIRY, STARVATION_EXPIRY, LOOKAHEAD_WAIT_THRESHOLD and RETUNE_LIMIT_EXPIRY
(R38, R144, R145, R59, R40, R155): the strobe is negated; the MORE page's header is to be read again; the item is given
the decided end STARVED and its reading stops; the cut is decided and the reading stops; a retune fails: a TUNE_FAIL
onset takes the channel to FAULTED, its RETUNE docket is answered FAILED, FAULT is raised, the fault is counted unless
the quiet period runs, and the quiet period starts. That a timer that has not run out, and a threshold not reached,
bring nothing is the model's choice (notes/assumptions/1.md). -/
def Obligations.ChannelTimersAndRetuneLimit : Prop :=
  (∀ (c : Chan) (s : State), s.power = true →
      exec (.tuneStrobeExpiry c) s =
          .next (s.setChan c (fun ch => { ch with strobe := if ch.strobe = some 0 then none else ch.strobe }))
      ∧ (∀ rd, (s.chan c).fetch.reread = some 0 → (s.chan c).fetch.reading = some rd →
          exec (.pageRereadTimerExpiry c) s = .next (s.setChan c (fun ch =>
            { ch with fetch := { ch.fetch with reread := none, reading := some { rd with request := some .reread } } })))
      ∧ ((s.chan c).fetch.reread ≠ some 0 → exec (.pageRereadTimerExpiry c) s = .next s)
      ∧ ((s.chan c).waiting = true → (s.chan c).fetch.starvation = some 0 → (s.chan c).decided = none →
          ∃ t, exec (.starvationExpiry c) s = .next t ∧ (t.chan c).decided = some .starved
            ∧ (t.chan c).fetch.reading = none ∧ (t.chan c).fetch.reread = none ∧ (t.chan c).fetch.starvation = none
            ∧ (t.chan c).tx = (s.chan c).tx ∧ (∀ d, d ≠ c → t.chan d = s.chan d) ∧ t.rack = s.rack)
      ∧ ((s.chan c).fetch.starvation ≠ some 0 → exec (.starvationExpiry c) s = .next s)
      ∧ (∀ a : Int, (s.chan c).waitOpen = true → s.available c = some a →
          (a ≤ (((s.chan c).item.cut.length + 1) * (s.chan c).item.period : Nat) →
            ∃ t, exec (.lookaheadWaitThreshold c) s = .next t ∧ (t.chan c).cutDecided = true
              ∧ (t.chan c).fetch.reading = none ∧ (t.chan c).fetch.reread = none ∧ (t.chan c).fetch.starvation = none
              ∧ (t.chan c).tx = (s.chan c).tx ∧ (∀ d, d ≠ c → t.chan d = s.chan d) ∧ t.rack = s.rack
              ∧ t.telex = s.telex)
          ∧ ((((s.chan c).item.cut.length + 1) * (s.chan c).item.period : Nat) < a →
            exec (.lookaheadWaitThreshold c) s = .next s)))
  ∧ ∀ (c : Chan) (s : State), s.power = true → s.Calm → (s.chan c).state = .retuning →
      ((s.chan c).retuneLimit ≠ some 0 → exec (.retuneLimitExpiry c) s = .next s)
      ∧ ((s.chan c).retuneLimit = some 0 → (s.chan c).onAir = none → (s.chan c).follower = none →
        (s.chan c).offWaits = false → s.pendingRelay c = none →
        ((s.chan c).line.quiet.isSome = true ∨ (s.chan c).line.faults < 2) →
        ∃ t, exec (.retuneLimitExpiry c) s = .next t ∧ (t.chan c).state = .faulted ∧ (t.chan c).retune = none
          ∧ (t.chan c).retuneLimit = none ∧ (t.chan c).stopPending = false
          ∧ (t.chan c).pendingHold = (s.chan c).pendingHold
          ∧ (t.chan c).line.lastKind = .tuneFail
          ∧ (t.chan c).line.quiet = some (s.store.working.quietSeconds * 1000)
          ∧ (t.chan c).line.faults = (if (s.chan c).line.quiet = none ∧ (s.chan c).line.faults < 3
              then (s.chan c).line.faults + 1 else (s.chan c).line.faults)
          ∧ t.rack.events = s.rack.events ||| Flag.fault.word
          ∧ (∀ slot, (s.chan c).retune = some slot →
              t.rack.backlog = s.rack.backlog ++ [s.takenAnswer slot .failed .none false])
          ∧ (∀ d, d ≠ c → t.chan d = s.chan d))

/-! ## The lines -/

/-- LINE_CHECK (R151, R152, R155): its timer is restarted and the samples are counted; an ALARM run that reaches the
alarm delay is an onset that takes an idle, unready or held channel to FAULTED and raises FAULT; that a check whose
timer has not run out brings nothing is the model's choice (notes/assumptions/1.md), and so is that the recovery count
holds at 65,535 (notes/assumptions/78.md). -/
def Obligations.LineCheckCountsAndDeclaresAlarm : Prop :=
  ∀ (c : Chan) (ready alarm aux : Bool) (bus : Bus) (s : State), s.power = true → bus.prompt = [] → bus.writes = [] →
    s.Calm → (s.store.working.chan.get c).aux ≠ .stopKey →
    ((s.chan c).line.check ≠ some 0 → exec (.lineCheck c ready alarm aux bus) s = .next s)
    ∧ ((s.chan c).line.check = some 0 → (s.chan c).state ≠ .off → (s.chan c).state ≠ .retuning →
      (s.chan c).state ≠ .faulted → (s.chan c).line.readyDeclared = true → (s.chan c).line.ready.level = some ready →
      (alarm = true → (s.chan c).line.alarm.level = some true ∧ (s.chan c).line.alarmDeclared = true) →
      exec (.lineCheck c ready alarm aux bus) s = .next (s.setChan c (fun ch =>
        { ch with line := { ch.line with
            check := some 10, alarm := ch.line.alarm.sample alarm, ready := ch.line.ready.sample ready
            alarmDeclared := ch.line.alarmDeclared && alarm && decide (ch.line.alarm.level = some true)
              || (ch.line.alarmDeclared && !alarm && decide (ch.line.alarm.level = some false))
            recovery := if alarm then 0 else if ch.line.recovery < 65535 then ch.line.recovery + 1
              else ch.line.recovery } })))
    ∧ ((s.chan c).line.check = some 0 → (s.chan c).state = .idle ∨ (s.chan c).state = .unready
        ∨ (s.chan c).state = .held → alarm = true →
      (s.chan c).line.alarm = { level := some true, count := s.store.working.alarmDelay - 1 } →
      1 ≤ s.store.working.alarmDelay → s.store.working.alarmDelay ≤ 50 → (s.chan c).line.alarmDeclared = false →
      (s.chan c).onAir = none → (s.chan c).retune = none → (s.chan c).follower = none →
      (s.chan c).offWaits = false → s.pendingRelay c = none →
      ((s.chan c).line.quiet.isSome = true ∨ (s.chan c).line.faults < 2) →
      ∃ t, exec (.lineCheck c ready alarm aux bus) s = .next t ∧ (t.chan c).state = .faulted
        ∧ (t.chan c).line.lastKind = .alarm ∧ (t.chan c).line.recovery = 0 ∧ (t.chan c).line.check = some 10
        ∧ (t.chan c).line.alarmDeclared = true
        ∧ (t.chan c).line.quiet = some (s.store.working.quietSeconds * 1000)
        ∧ (t.chan c).line.faults = (if (s.chan c).line.quiet = none ∧ (s.chan c).line.faults < 3
            then (s.chan c).line.faults + 1 else (s.chan c).line.faults)
        ∧ t.rack.events = s.rack.events ||| Flag.fault.word ∧ t.rack.backlog = s.rack.backlog
        ∧ (∀ d, d ≠ c → t.chan d = s.chan d))

/-- LINE_CHECK with ALARM absent on a channel with no stop key (R154, R28, R39). With the carrier down, a READY run that
reaches the alarm delay undeclared is reported: an IDLE channel becomes UNREADY, an UNREADY one IDLE, where here its
pick finds nothing, and a HELD one changes its ready view alone. A RETUNING channel counts READY's absence for the alarm
delay, and then its presence, each broken run beginning again; when the presence has been seen, the retune succeeds: its
docket is answered DONE and the ready view is PRESENT, and the channel enters HELD if it was HELD, a stop is pending or
a HOLD is pending, which is answered DONE after it, and otherwise IDLE. That stop pending reads no after a success is
the model's choice (notes/assumptions/82.md). -/
def Obligations.LineCheckReportsReadyAndRetunes : Prop :=
  ∀ (c : Chan) (ready aux : Bool) (bus : Bus) (s : State), s.power = true → bus.prompt = [] → bus.writes = [] → s.Calm →
    (s.store.working.chan.get c).aux ≠ .stopKey → (s.chan c).line.check = some 0 →
    1 ≤ s.store.working.alarmDelay → s.store.working.alarmDelay ≤ 50 →
    ((s.chan c).line.ready = { level := some ready, count := s.store.working.alarmDelay - 1 } →
      (s.chan c).line.readyDeclared = false →
      ((s.chan c).state = .idle → ready = false → ∃ t, exec (.lineCheck c ready false aux bus) s = .next t
        ∧ (t.chan c).state = .unready ∧ (t.chan c).readyView = false ∧ (t.chan c).line.readyDeclared = true
        ∧ (t.chan c).key = false ∧ (∀ d, d ≠ c → t.chan d = s.chan d) ∧ t.rack = s.rack ∧ t.telex = s.telex)
      ∧ ((s.chan c).state = .unready → ready = true → s.NothingFor c →
        ∃ t, exec (.lineCheck c ready false aux bus) s = .next t
        ∧ (t.chan c).state = .idle ∧ (t.chan c).readyView = true ∧ (t.chan c).line.readyDeclared = true
        ∧ (t.chan c).key = false ∧ (∀ d, d ≠ c → t.chan d = s.chan d) ∧ t.rack = s.rack ∧ t.telex = s.telex)
      ∧ ((s.chan c).state = .held → ∃ t, exec (.lineCheck c ready false aux bus) s = .next t
        ∧ (t.chan c).state = .held ∧ (t.chan c).readyView = ready ∧ (t.chan c).line.readyDeclared = true
        ∧ (∀ d, d ≠ c → t.chan d = s.chan d) ∧ t.rack = s.rack))
    ∧ ((s.chan c).state = .retuning →
      (ready = (s.chan c).absenceSeen → (s.chan c).readyCount + 1 < s.store.working.alarmDelay →
        ∃ t, exec (.lineCheck c ready false aux bus) s = .next t ∧ (t.chan c).state = .retuning
          ∧ (t.chan c).readyCount = (s.chan c).readyCount + 1 ∧ (t.chan c).absenceSeen = (s.chan c).absenceSeen
          ∧ (t.chan c).readyView = (s.chan c).readyView ∧ t.rack = s.rack ∧ (∀ d, d ≠ c → t.chan d = s.chan d))
      ∧ (ready ≠ (s.chan c).absenceSeen → ∃ t, exec (.lineCheck c ready false aux bus) s = .next t
          ∧ (t.chan c).state = .retuning ∧ (t.chan c).readyCount = 0
          ∧ (t.chan c).absenceSeen = (s.chan c).absenceSeen ∧ t.rack = s.rack ∧ (∀ d, d ≠ c → t.chan d = s.chan d))
      ∧ (ready = false → (s.chan c).absenceSeen = false →
        s.store.working.alarmDelay ≤ (s.chan c).readyCount + 1 →
        ∃ t, exec (.lineCheck c ready false aux bus) s = .next t ∧ (t.chan c).state = .retuning
          ∧ (t.chan c).absenceSeen = true ∧ (t.chan c).readyCount = 0 ∧ t.rack = s.rack
          ∧ (∀ d, d ≠ c → t.chan d = s.chan d))
      ∧ (∀ slot, ready = true → (s.chan c).absenceSeen = true →
        s.store.working.alarmDelay ≤ (s.chan c).readyCount + 1 → (s.chan c).retune = some slot →
        (s.chan c).pendingRetune = none → (s.chan c).follower = none → s.pendingRelay c = none →
        ((s.chan c).returnHeld = true ∨ (s.chan c).stopPending = true ∨ (s.chan c).pendingHold.isSome = true →
          ∃ t, exec (.lineCheck c ready false aux bus) s = .next t ∧ (t.chan c).state = .held
            ∧ (t.chan c).readyView = true ∧ (t.chan c).retune = none ∧ (t.chan c).retuneLimit = none
            ∧ (t.chan c).stopPending = false ∧ (t.chan c).pendingHold = none
            ∧ (t.chan c).preset = (s.chan c).preset
            ∧ ((s.chan c).pendingHold = none →
                t.rack.backlog = s.rack.backlog ++ [s.takenAnswer slot .done .none false])
            ∧ (∀ k, (s.chan c).pendingHold = some k → t.rack.backlog = s.rack.backlog
                ++ [s.takenAnswer slot .done .none false, s.takenAnswer k .done .none false])
            ∧ (∀ d, d ≠ c → t.chan d = s.chan d))
        ∧ ((s.chan c).returnHeld = false → (s.chan c).stopPending = false → s.NothingFor c →
          ∃ t, exec (.lineCheck c ready false aux bus) s = .next t ∧ (t.chan c).state = .idle
            ∧ (t.chan c).readyView = true ∧ (t.chan c).retune = none ∧ (t.chan c).retuneLimit = none
            ∧ (t.chan c).preset = (s.chan c).preset
            ∧ t.rack.backlog = s.rack.backlog ++ [s.takenAnswer slot .done .none false]
            ∧ (∀ d, d ≠ c → t.chan d = s.chan d))))

/-- LINE_CHECK: the stop key (R160, R161, R32), a NOT_READY onset (R153, R155, R29), and a third counted fault (R157,
R31). A change of the AUX level at two like samples, in the direction of the stop edge setting, raises STOPKEY: an IDLE
or UNREADY channel enters HELD at once, one with its carrier up waits for its next character boundary, a RETUNING one
has a stop pending, a HELD one is left; with no relay pending, no follower mark and no retune about to succeed, nothing
but STOPKEY is raised and no other channel changes; a first sample sets the level and a single different one changes
nothing. READY
absent for the alarm delay with the carrier up cuts telex in its text, which is INTERRUPTED, and the channel is
FAULTED. The third counted fault takes the channel to LOCKED_OUT, with LOCKOUT raised and a pending RETUNE and HOLD
answered FAILED; that the answer of the RETUNE is made before that of the HOLD is the model's choice
(notes/assumptions/65.md). -/
def Obligations.LineCheckStopKeyNotReadyLockout : Prop :=
  (∀ (c : Chan) (ready aux : Bool) (bus : Bus) (s : State), s.power = true → bus.prompt = [] → bus.writes = [] → s.Calm →
    (s.store.working.chan.get c).aux = .stopKey → (s.chan c).line.check = some 0 →
    (s.chan c).line.readyDeclared = true → (s.chan c).line.ready.level = some ready → (s.chan c).state ≠ .faulted →
    let edge : Prop := (s.store.working.chan.get c).edge = .both
      ∨ (s.store.working.chan.get c).edge = (if aux = true then .rising else .falling)
    ((s.chan c).line.auxLevel = some (!aux) → (s.chan c).line.auxLast = some aux → edge →
      (s.chan c).offWaits = false →
      ∃ t, exec (.lineCheck c ready false aux bus) s = .next t ∧ (t.chan c).line.auxLevel = some aux
        ∧ t.rack.events.getLsbD Flag.stopKey.bit = true
        ∧ (s.pendingRelay c = none → (s.chan c).follower = none →
            ((s.chan c).state = .retuning → (s.chan c).absenceSeen = false) →
            t.rack.events = s.rack.events ||| Flag.stopKey.word ∧ (∀ d, d ≠ c → t.chan d = s.chan d))
        ∧ ((s.chan c).state = .idle ∨ (s.chan c).state = .unready → (s.chan c).pendingHold = none →
            (s.chan c).pendingRetune = none → (s.chan c).follower = none → s.pendingRelay c = none →
            (t.chan c).state = .held ∧ (t.chan c).key = false)
        ∧ ((s.chan c).key = true → (t.chan c).stopAtBoundary = true ∧ (t.chan c).state = (s.chan c).state
            ∧ (t.chan c).tx = (s.chan c).tx ∧ (t.chan c).onAir = (s.chan c).onAir)
        ∧ ((s.chan c).state = .retuning → (s.chan c).absenceSeen = false →
            (t.chan c).stopPending = true ∧ (t.chan c).state = .retuning)
        ∧ ((s.chan c).state = .held → (t.chan c).state = .held ∧ (t.chan c).onAir = (s.chan c).onAir))
    ∧ ((s.chan c).state ≠ .retuning → (s.chan c).line.auxLast ≠ some aux ∨ (s.chan c).line.auxLevel ≠ some (!aux) →
      ∃ t, exec (.lineCheck c ready false aux bus) s = .next t ∧ (t.chan c).line.auxLast = some aux
        ∧ (t.chan c).line.auxLevel = (if (s.chan c).line.auxLevel = none then some aux else (s.chan c).line.auxLevel)
        ∧ t.rack = s.rack ∧ (t.chan c).state = (s.chan c).state ∧ (∀ d, d ≠ c → t.chan d = s.chan d)))
  ∧ ∀ (c : Chan) (aux : Bool) (bus : Bus) (s : State), s.power = true → bus.prompt = [] → bus.writes = [] → s.Calm →
    (s.store.working.chan.get c).aux ≠ .stopKey → (s.chan c).line.check = some 0 →
    1 ≤ s.store.working.alarmDelay → s.store.working.alarmDelay ≤ 50 → (s.chan c).offWaits = false →
    (s.chan c).follower = none → s.pendingRelay c = none → (s.chan c).retune = none →
    (∀ item, (s.chan c).line.ready = { level := some false, count := s.store.working.alarmDelay - 1 } →
      (s.chan c).line.readyDeclared = false → (s.chan c).state = .sending → (s.chan c).segment = some .text →
      s.telexOn c = some item → item.state = .onAir → (s.chan c).decided = none → (s.chan c).fixed = none →
      (s.chan c).line.quiet.isSome = true ∨ (s.chan c).line.faults < 2 →
      ∃ t i, exec (.lineCheck c false false aux bus) s = .next t ∧ (t.chan c).state = .faulted
        ∧ (t.chan c).key = false ∧ (t.chan c).tx = none ∧ (t.chan c).onAir = none
        ∧ (t.chan c).line.lastKind = .notReady ∧ (t.chan c).line.readyDeclared = true
        ∧ (t.chan c).line.quiet = some (s.store.working.quietSeconds * 1000)
        ∧ t.telexAt item.slot = some i ∧ i.state = .interrupted ∧ i.offset = item.offset
        ∧ i.cuts = (if item.cuts < 255 then item.cuts + 1 else item.cuts)
        ∧ t.rack.events = s.rack.events ||| Flag.fault.word ∧ t.rack.backlog = s.rack.backlog
        ∧ (∀ d, d ≠ c → t.chan d = s.chan d))
    ∧ (∀ ready, (s.chan c).line.alarm = { level := some true, count := s.store.working.alarmDelay - 1 } →
      (s.chan c).line.alarmDeclared = false → (s.chan c).state = .idle ∨ (s.chan c).state = .held →
      (s.chan c).onAir = none → (s.chan c).line.quiet = none → (s.chan c).line.faults = 2 →
      ∃ t, exec (.lineCheck c ready true aux bus) s = .next t ∧ (t.chan c).state = .lockedOut
        ∧ (t.chan c).line.faults = 3 ∧ (t.chan c).line.lastKind = .alarm ∧ (t.chan c).key = false
        ∧ (t.chan c).line.quiet = some (s.store.working.quietSeconds * 1000)
        ∧ (t.chan c).pendingRetune = none ∧ (t.chan c).pendingHold = none
        ∧ t.rack.events = s.rack.events ||| Flag.fault.word ||| Flag.lockout.word
        ∧ t.rack.backlog = s.rack.backlog
            ++ ((s.chan c).pendingRetune.map (fun p => s.takenAnswer p.1 .failed .none false)).toList
            ++ ((s.chan c).pendingHold.map (fun k => s.takenAnswer k .failed .none false)).toList
        ∧ (∀ d, d ≠ c → t.chan d = s.chan d))

/-- Relays at reduced power (R30, R162, R126, R127). An ALARM onset that finds a relay on air leaves it on air, at its
code, where the channel's distress-on-fault setting is REDUCED: KEY stays asserted, LOWPWR is asserted, and the channel
is FAULTED; without the setting the relay is FAILED there and the carrier is down. A NOT_READY onset during a reduced
relay fails it too. At the end of the last code of a reduced relay the next one pending follows directly, with no lead;
with none, KEY and LOWPWR are negated, and the channel stays FAULTED, or enters IDLE if a recovery is pending. A relay
offered to a FAULTED channel that meets the condition, with none on air or pending, is taken: KEY and LOWPWR are
asserted, the lead runs, and the state stays FAULTED. That an onset on a channel still FAULTED under its reduced relay
raises no FAULT, also after a CLEARFAULT that left it so, is the model's reading of R158 (notes/assumptions/61.md). -/
def Obligations.ReducedPowerRelays : Prop :=
  (∀ (c : Chan) (a : OnAir) (e : PrioEntry) (ready aux : Bool) (bus : Bus) (s : State), s.power = true →
    bus.prompt = [] → bus.writes = [] → s.Calm → (s.store.working.chan.get c).aux ≠ .stopKey →
    (s.chan c).line.check = some 0 → 1 ≤ s.store.working.alarmDelay → s.store.working.alarmDelay ≤ 50 →
    (s.chan c).line.quiet.isSome = true ∨ (s.chan c).line.faults < 2 → (s.chan c).follower = none →
    (s.chan c).offWaits = false → (s.chan c).retune = none → (s.chan c).onAir = some a → a.kind = .distress →
    s.prioAt a.slot = some e → e.withdrawn = false → (∃ d, d ≠ c ∧ (e.out.get d = .pending ∨ e.out.get d = .onAir)) →
    ((s.chan c).line.alarm = { level := some true, count := s.store.working.alarmDelay - 1 } →
      (s.chan c).line.alarmDeclared = false → (s.chan c).state = .sending →
      ((s.store.working.chan.get c).reduced = true → ∃ t, exec (.lineCheck c ready true aux bus) s = .next t
        ∧ (t.chan c).state = .faulted ∧ (t.chan c).key = true ∧ (t.chan c).lowpwr = true
        ∧ (t.chan c).onAir = some a ∧ (t.chan c).tx = (s.chan c).tx ∧ (t.chan c).period = (s.chan c).period
        ∧ (t.chan c).line.lastKind = .alarm ∧ t.priority = s.priority
        ∧ t.rack.events = s.rack.events ||| Flag.fault.word ∧ t.rack.backlog = s.rack.backlog
        ∧ (∀ d, d ≠ c → t.chan d = s.chan d))
      ∧ ((s.store.working.chan.get c).reduced = false → s.pendingRelay c = none →
        ∃ t, exec (.lineCheck c ready true aux bus) s = .next t
        ∧ (t.chan c).state = .faulted ∧ (t.chan c).key = false ∧ (t.chan c).lowpwr = false
        ∧ (t.chan c).onAir = none ∧ (t.chan c).tx = none
        ∧ t.prioAt a.slot = some { e with out := e.out.set c .failed, changed := true }
        ∧ t.rack.events = s.rack.events ||| Flag.fault.word ∧ t.rack.backlog = s.rack.backlog
        ∧ (∀ d, d ≠ c → t.chan d = s.chan d)))
    ∧ ((s.chan c).line.ready = { level := some false, count := s.store.working.alarmDelay - 1 } →
      (s.chan c).line.readyDeclared = false → (s.chan c).state = .faulted → s.pendingRelay c = none →
      ∃ t, exec (.lineCheck c false false aux bus) s = .next t
        ∧ (t.chan c).state = .faulted ∧ (t.chan c).key = false ∧ (t.chan c).lowpwr = false
        ∧ (t.chan c).onAir = none ∧ (t.chan c).tx = none ∧ (t.chan c).line.lastKind = .notReady
        ∧ t.prioAt a.slot = some { e with out := e.out.set c .failed, changed := true }
        ∧ t.rack = s.rack ∧ (∀ d, d ≠ c → t.chan d = s.chan d)))
  ∧ (∀ (c : Chan) (a : OnAir) (e : PrioEntry) (b : BodyReading) (bus : Bus) (s : State), s.power = true →
    bus.prompt = [] → bus.writes = [] → s.Calm → (s.chan c).state = .faulted → (s.chan c).period = some 0 →
    (s.chan c).offWaits = false → (s.chan c).stopAtBoundary = false → (s.chan c).onAir = some a → a.kind = .distress →
    (s.chan c).fetch.body = some b → b.complete = true → (s.chan c).tx.map Tx.kind = some .body →
    s.prioAt a.slot = some e → e.distress = true → e.withdrawn = false → maskChans e.mask = [c] →
    (∀ d, e.out.get d = if d = c then .onAir else .notUsed) →
    (s.pendingRelay c = none → ∃ t, exec (.characterBoundary c bus) s = .next t
      ∧ ((s.chan c).recoveryPending = false → (t.chan c).state = .faulted)
      ∧ ((s.chan c).recoveryPending = true → (s.chan c).readyView = true → s.NothingFor c →
          (t.chan c).state = .idle ∧ (t.chan c).recoveryPending = false)
      ∧ ((s.chan c).recoveryPending = false ∨ s.NothingFor c → (t.chan c).key = false ∧ (t.chan c).lowpwr = false
          ∧ (t.chan c).tx = none ∧ (t.chan c).onAir = none
          ∧ t.rack.backlog = s.rack.backlog
              ++ [s.takenAnswer a.slot .done (.priority (e.out.set c .sent)) true]
          ∧ t.prioAt a.slot = none ∧ (∀ d, d ≠ c → t.chan d = s.chan d)))
    ∧ (∀ next, s.pendingRelay c = some next → s.prioAt next.slot = some next →
      ∃ t x, exec (.characterBoundary c bus) s = .next t ∧ (t.chan c).state = .faulted
        ∧ (t.chan c).key = true ∧ (t.chan c).lowpwr = true ∧ (t.chan c).lead = none
        ∧ (t.chan c).onAir = some { kind := .distress, slot := next.slot, repetition := 0, resumed := false }
        ∧ (t.chan c).tx = some { kind := .idle, code := s.store.working.idle }
        ∧ t.prioAt next.slot = some x ∧ x.out.get c = .onAir ∧ t.prioAt a.slot = none
        ∧ t.rack.backlog = s.rack.backlog ++ [s.takenAnswer a.slot .done (.priority (e.out.set c .sent)) true]
        ∧ (∀ d, d ≠ c → t.chan d = s.chan d)))
  ∧ ∀ (slot : Nat) (c : Chan) (bus : Bus) (s u : State), bus.errors = [] → bus.prompt = [] →
    s.Hands bus slot (some .distress) u → u.Calm → maskChans (priorityMask u slot) = [c] → u.priority.length < 8 →
    intakeWalk bus u 64 (u.slotField slot 34 2) [] = .good → (u.chan c).state = .faulted →
    (u.store.working.chan.get c).reduced = true → (u.chan c).line.lastKind = .alarm → (u.chan c).onAir = none →
    (u.chan c).offWaits = false → u.pendingRelay c = none → (u.store.working.chan.get c).lead ≠ 0 →
    ∃ t x, exec (.distress slot bus) s = .next t ∧ (t.chan c).state = .faulted ∧ (t.chan c).key = true
      ∧ (t.chan c).lowpwr = true
      ∧ (t.chan c).onAir = some { kind := .distress, slot := slot, repetition := 0, resumed := false }
      ∧ (t.chan c).lead = some (u.store.working.chan.get c).lead
      ∧ (t.chan c).tx = some { kind := .idle, code := u.store.working.idle }
      ∧ t.prioAt slot = some x ∧ x.distress = true ∧ x.out.get c = .onAir ∧ t.rack.backlog = u.rack.backlog
      ∧ (∀ d, d ≠ c → t.chan d = u.chan d)

/-- QUIET_PERIOD_EXPIRY (R156, R31): the quiet period ends; a FAULTED channel whose recovery count has reached the delay
recovers to IDLE, or to UNREADY while its ready view is ABSENT; any other channel is left. That the delay is the working
image's at the expiry, also right after a SETUP EXIT that has changed it, is the model's choice
(notes/assumptions/79.md). A HOLD pending on a channel that comes to UNREADY stays pending, which is the model's reading
(notes/assumptions/33.md). -/
def Obligations.QuietPeriodEndRecovers : Prop :=
  ∀ (c : Chan) (bus : Bus) (s : State), s.power = true → bus.prompt = [] → bus.writes = [] → s.Calm →
    (s.chan c).line.quiet = some 0 →
    ((s.chan c).state ≠ .faulted ∨ (s.chan c).line.recovery < s.store.working.recoveryDelay →
      exec (.quietPeriodExpiry c bus) s =
        .next (s.setChan c (fun ch => { ch with line := { ch.line with quiet := none } })))
    ∧ ((s.chan c).state = .faulted → s.store.working.recoveryDelay ≤ (s.chan c).line.recovery →
      (s.chan c).line.recoveryReported = false → (s.chan c).onAir = none →
      ((s.chan c).readyView = true → s.NothingFor c) →
      exec (.quietPeriodExpiry c bus) s = .next (s.setChan c (fun ch =>
        { (ch.enter (if ch.readyView then .idle else .unready)) with
          line := { ch.line with quiet := none, recoveryReported := true } })))

/-! ## The call and the pages -/

/-- RXD_CODE_ARRIVAL (R87, R88, R91, R94): a code is discarded unless the Call Unit listens; one that makes no match and
does not fill the window joins it; one that completes the answerback of an opening call counts the attempt, in the item
and in the counter of the call, and begins the item's first line, or its resume notice where the item was INTERRUPTED
and the notice is not empty (R63, R23). The 24th code without a match counts the attempt and ends the item WRONG_STATION
in an opening call, and UNCONFIRMED in a closing check, where a match ends it DONE; the channel, for which nothing else
waits, is then in HANG. A match is made when the newest codes of the window are the expected answerback, code for code.
Where a relay or a stop-key edge waits for a boundary at a match of an opening call, the attempt is counted, the item is
handed back INTERRUPTED at its offset, whatever its first line holds (R95), and the relay takes the channel or the
channel enters HELD: that this comes in the event of the match, before a signoff of an empty line begins, is the model's
choice (notes/assumptions/58.md, 64.md). That the counter keeps its value after a match or a full window, until the next
call phase, is the model's reading (notes/assumptions/45.md). -/
def Obligations.RxdArrivalJoinsOrMatches : Prop :=
  (∀ window answer : List Byte, answerbackMatches window answer = true ↔ ∃ older, window = older ++ answer)
  ∧ ∀ (c : Chan) (code : Byte) (bus : Bus) (s : State), s.power = true → bus.prompt = [] → bus.writes = [] → s.Calm →
    ((s.chan c).call.condition ≠ .listen → exec (.rxdCodeArrival c code bus) s = .next s)
    ∧ (∀ item, (s.chan c).call.condition = .listen → s.telexOn c = some item →
      answerbackMatches ((s.chan c).call.window ++ [code]) item.answerback = false →
      (s.chan c).call.window.length + 1 < 24 →
      exec (.rxdCodeArrival c code bus) s = .next (s.setChan c (fun ch =>
        { ch with call := { ch.call with window := ch.call.window ++ [code] } })))
    ∧ (∀ item first more, s.Undisturbed c → (s.chan c).call.condition = .listen → (s.chan c).state = .calling →
      s.telexOn c = some item → (s.chan c).call.mode = some .opening → (s.chan c).call.resumed = some true →
      answerbackMatches ((s.chan c).call.window ++ [code]) item.answerback = true →
      (s.chan c).item.resume = first :: more →
      ∃ t i, exec (.rxdCodeArrival c code bus) s = .next t ∧ (t.chan c).state = .sending
        ∧ (t.chan c).segment = some .resumeNotice ∧ (t.chan c).tx = some { kind := .notice, code := first }
        ∧ (t.chan c).rest = more ∧ (t.chan c).textPosition = item.offset
        ∧ (t.chan c).fetch = (s.chan c).fetch ∧ (t.chan c).call.condition = .standby
        ∧ (t.chan c).call.timer = none ∧ (t.chan c).call.window = []
        ∧ (t.chan c).call.attempts = (s.chan c).call.attempts + 1
        ∧ t.telexAt item.slot = some i ∧ i.state = .onAir
        ∧ i.attempts = (if item.attempts < 255 then item.attempts + 1 else item.attempts)
        ∧ t.rack = s.rack ∧ (∀ d, d ≠ c → t.chan d = s.chan d))
    ∧ (∀ item rd first more final, s.Undisturbed c → (s.chan c).call.condition = .listen →
      (s.chan c).state = .calling → s.telexOn c = some item → (s.chan c).call.mode = some .opening →
      (s.chan c).call.resumed = some false ∨ (s.chan c).item.resume = [] →
      answerbackMatches ((s.chan c).call.window ++ [code]) item.answerback = true →
      (s.chan c).fetch.reading = some rd → rd.condition = .settled final → rd.line = first :: more →
      ∃ t i, exec (.rxdCodeArrival c code bus) s = .next t ∧ (t.chan c).state = .sending
        ∧ (t.chan c).segment = some .text ∧ (t.chan c).tx = some { kind := .text, code := first }
        ∧ (t.chan c).rest = more ∧ (t.chan c).call.condition = .standby ∧ (t.chan c).call.timer = none
        ∧ (t.chan c).call.window = [] ∧ (t.chan c).call.attempts = (s.chan c).call.attempts + 1
        ∧ t.telexAt item.slot = some i ∧ i.state = .onAir
        ∧ i.attempts = (if item.attempts < 255 then item.attempts + 1 else item.attempts)
        ∧ (∀ d, d ≠ c → t.chan d = s.chan d))
    ∧ (∀ item, (s.chan c).call.condition = .listen → (s.chan c).state = .calling → s.telexOn c = some item →
      (s.chan c).call.mode = some .opening → (s.chan c).decided = none → (s.chan c).fixed = none →
      (s.chan c).offWaits = false →
      answerbackMatches ((s.chan c).call.window ++ [code]) item.answerback = true →
      (∀ e, (s.chan c).stopAtBoundary = false → s.pendingRelay c = some e →
        ∃ t, exec (.rxdCodeArrival c code bus) s = .next t ∧ t.RelayOnAir c e ∧ s.HandedBackCounted t c item)
      ∧ ((s.chan c).stopAtBoundary = true → s.pendingRelay c = none → (s.chan c).pendingHold = none →
        (s.chan c).pendingRetune = none → (s.chan c).follower = none →
        ∃ t, exec (.rxdCodeArrival c code bus) s = .next t ∧ t.HeldByStopKey c ∧ s.HandedBackCounted t c item))
    ∧ (∀ item, (s.chan c).call.condition = .listen → s.NothingBehind c item → (s.chan c).item.hang ≠ 0 →
      let hangs (result : Result) (attempts count : Nat) : Prop :=
        ∃ t, exec (.rxdCodeArrival c code bus) s = .next t
          ∧ (t.chan c).state = .hang ∧ (t.chan c).hang = some (s.chan c).item.hang ∧ (t.chan c).onAir = none
          ∧ (t.chan c).tx = some { kind := .idle, code := (s.chan c).item.idle }
          ∧ (t.chan c).call.condition = .standby ∧ (t.chan c).call.timer = none ∧ (t.chan c).call.window = []
          ∧ (t.chan c).call.attempts = count ∧ t.telex = s.telex.filter (fun x => x.slot != item.slot)
          ∧ t.rack.backlog = s.rack.backlog
              ++ [s.takenAnswer item.slot result (.telex item.sent item.offset item.cuts attempts) true]
          ∧ (∀ d, d ≠ c → t.chan d = s.chan d)
      let full : Prop := answerbackMatches ((s.chan c).call.window ++ [code]) item.answerback = false
        ∧ 24 ≤ (s.chan c).call.window.length + 1
      ((s.chan c).state = .calling → (s.chan c).call.mode = some .opening → full → hangs .wrongStation
          (if item.attempts < 255 then item.attempts + 1 else item.attempts) ((s.chan c).call.attempts + 1))
      ∧ ((s.chan c).state = .closing → (s.chan c).call.mode = some .closing →
        (full → hangs .unconfirmed item.attempts (s.chan c).call.attempts)
        ∧ (answerbackMatches ((s.chan c).call.window ++ [code]) item.answerback = true →
          hangs .done item.attempts (s.chan c).call.attempts)))

/-- ANSWERBACK_TIMEOUT and CLOSING_CHECK_TIMEOUT (R89, R90, R94). With attempts left, nothing preempting, and the need
of the start test without U fitting in A or the channel unbounded, the next attempt begins with the call code; with a
need that does not fit, the item goes back to its queue INTERRUPTED, its cuts as they were and its first-line reading
kept, and the channel, where the pick tries the item again and does not find it to fit, is in HANG. With an urgent or a
due bulletin present as a preemption source it goes back in the same way, whatever its need, and the pick that follows
takes the source at once. At the call attempts setting the item ends NO_CONTACT, and a closing check ends UNCONFIRMED;
the channel, for which nothing else waits, is in HANG. Where a relay or a stop-key edge waits for a boundary and a
further attempt begins, that attempt is abandoned uncounted, the item is INTERRUPTED with the attempt that timed out
counted, and the relay takes the channel or the channel enters HELD (R95): that this comes in the event of the timeout is
the model's choice (notes/assumptions/58.md). That the counter of a call stays at its count after NO_CONTACT is the
model's reading (notes/assumptions/45.md). -/
def Obligations.AnswerbackTimeoutsRetryOrEnd : Prop :=
  (∀ (c : Chan) (item : TelexItem) (bus : Bus) (s : State), s.power = true → bus.prompt = [] → bus.writes = [] →
    s.Calm → s.NothingBehind c item → (s.chan c).call.condition = .listen → (s.chan c).call.timer = some 0 →
    (s.chan c).item.hang ≠ 0 →
    (∀ code more rd final need, (s.chan c).state = .calling → (s.chan c).call.mode = some .opening →
      (s.chan c).call.attempts + 1 < s.store.working.callAttempts → s.trafficSource c = false →
      item.callCode = code :: more → (s.chan c).fetch.reading = some rd → rd.slot = item.slot →
      rd.condition = .settled final →
      need = startNeed s.store.working c true item (decide ((s.chan c).call.resumed = some true)) rd.line.length final →
      ((∀ a, s.available c = some a → (need : Int) ≤ a) →
        ∃ t i, exec (.answerbackTimeout c bus) s = .next t ∧ (t.chan c).state = .calling
          ∧ (t.chan c).call.condition = .transmit ∧ (t.chan c).call.window = [] ∧ (t.chan c).call.timer = none
          ∧ (t.chan c).call.attempts = (s.chan c).call.attempts + 1
          ∧ (t.chan c).tx = some { kind := .call, code := code }
          ∧ (t.chan c).rest = more ++ [(s.chan c).item.request]
          ∧ t.telexAt item.slot = some i
          ∧ i.attempts = (if item.attempts < 255 then item.attempts + 1 else item.attempts)
          ∧ t.rack.backlog = s.rack.backlog ∧ (∀ d, d ≠ c → t.chan d = s.chan d))
      ∧ (∀ a, s.available c = some a → a < (need : Int) → s.store.setup = false →
        ∃ t i, exec (.answerbackTimeout c bus) s = .next t ∧ (t.chan c).state = .hang
          ∧ (t.chan c).hang = some (s.chan c).item.hang ∧ (t.chan c).onAir = none
          ∧ (t.chan c).call.condition = .standby ∧ (t.chan c).call.attempts = 0
          ∧ (t.chan c).fetch.reading = some rd
          ∧ (t.chan c).tx = some { kind := .idle, code := (s.chan c).item.idle }
          ∧ t.telexAt item.slot = some i ∧ i.state = .interrupted ∧ i.cuts = item.cuts ∧ i.offset = item.offset
          ∧ i.attempts = (if item.attempts < 255 then item.attempts + 1 else item.attempts)
          ∧ t.rack.backlog = s.rack.backlog ∧ (∀ d, d ≠ c → t.chan d = s.chan d)))
    ∧ ((s.chan c).state = .calling → (s.chan c).call.mode = some .opening →
      s.store.working.callAttempts ≤ (s.chan c).call.attempts + 1 →
      ∃ t a, exec (.answerbackTimeout c bus) s = .next t ∧ (t.chan c).state = .hang
        ∧ (t.chan c).call.condition = .standby ∧ (t.chan c).call.attempts = (s.chan c).call.attempts + 1
        ∧ (t.chan c).hang = some (s.chan c).item.hang
        ∧ t.telex = s.telex.filter (fun x => x.slot != item.slot)
        ∧ t.rack.backlog = s.rack.backlog ++ [a] ∧ a.slot = item.slot ∧ a.result = .noContact ∧ a.walk = true
        ∧ (∀ d, d ≠ c → t.chan d = s.chan d))
    ∧ ((s.chan c).state = .closing → (s.chan c).call.mode = some .closing →
      ∃ t, exec (.closingCheckTimeout c bus) s = .next t ∧ (t.chan c).state = .hang
        ∧ (t.chan c).call.condition = .standby ∧ (t.chan c).tx = some { kind := .idle, code := (s.chan c).item.idle }
        ∧ t.telex = s.telex.filter (fun x => x.slot != item.slot)
        ∧ t.rack.backlog = s.rack.backlog ++ [s.takenAnswer item.slot .unconfirmed item.progress true]
        ∧ (∀ d, d ≠ c → t.chan d = s.chan d)))
  ∧ (∀ (c : Chan) (item : TelexItem) (rd : Reading) (final : Bool) (need : Nat) (bus : Bus) (s : State),
    s.power = true → bus.prompt = [] → bus.writes = [] → s.Calm → s.telexOn c = some item →
    (s.chan c).state = .calling → (s.chan c).call.mode = some .opening → (s.chan c).call.condition = .listen →
    (s.chan c).call.timer = some 0 → (s.chan c).call.attempts + 1 < s.store.working.callAttempts →
    s.trafficSource c = false → item.state = .calling → (s.chan c).segment = none → (s.chan c).decided = none →
    (s.chan c).fixed = none → (s.chan c).offWaits = false → (s.chan c).fetch.reading = some rd → rd.condition = .settled final →
    need = startNeed s.store.working c true item (decide ((s.chan c).call.resumed = some true)) rd.line.length final →
    (∀ a, s.available c = some a → (need : Int) ≤ a) →
    (∀ e, (s.chan c).stopAtBoundary = false → s.pendingRelay c = some e →
      ∃ t, exec (.answerbackTimeout c bus) s = .next t ∧ t.RelayOnAir c e ∧ s.HandedBackCounted t c item
        ∧ (t.chan c).call.attempts = 0)
    ∧ ((s.chan c).stopAtBoundary = true → s.pendingRelay c = none → (s.chan c).pendingHold = none →
      (s.chan c).pendingRetune = none → (s.chan c).follower = none →
      ∃ t, exec (.answerbackTimeout c bus) s = .next t ∧ t.HeldByStopKey c ∧ s.HandedBackCounted t c item
        ∧ (t.chan c).call.attempts = 0))
  ∧ ∀ (c : Chan) (item : TelexItem) (bus : Bus) (s : State), s.power = true → bus.prompt = [] → bus.writes = [] →
    s.Calm → s.Undisturbed c → (s.chan c).pendingHold = none → (s.chan c).pendingRetune = none →
    (s.chan c).follower = none → s.store.setup = false → s.telexOn c = some item → (s.chan c).state = .calling →
    (s.chan c).call.mode = some .opening → (s.chan c).call.condition = .listen → (s.chan c).call.timer = some 0 →
    (s.chan c).call.attempts + 1 < s.store.working.callAttempts →
    let source (kind : ItemKind) (slot repetition page : Nat) : Prop :=
      ∃ t i, exec (.answerbackTimeout c bus) s = .next t ∧ (t.chan c).state = .sending ∧ (t.chan c).segment = none
        ∧ (t.chan c).onAir = some { kind := kind, slot := slot, repetition := repetition, resumed := false }
        ∧ (t.chan c).tx = some { kind := .idle, code := s.store.working.idle } ∧ (t.chan c).lead = none
        ∧ (t.chan c).fetch.body = some { pages := [], request := some page, walked := 0, failed := false }
        ∧ (t.chan c).call.condition = .standby ∧ (t.chan c).call.attempts = 0
        ∧ t.telexAt item.slot = some i ∧ i.state = .interrupted ∧ i.cuts = item.cuts ∧ i.offset = item.offset
        ∧ i.attempts = (if item.attempts < 255 then item.attempts + 1 else item.attempts)
        ∧ t.rack = s.rack ∧ (∀ d, d ≠ c → t.chan d = s.chan d)
        ∧ (kind = .urgent → ∃ x, t.prioAt slot = some x ∧ x.out.get c = .onAir)
        ∧ (kind = .bulletin → ∃ x, t.entryAt slot = some x ∧ x.out.get c = .onAir)
    (∀ e, s.waitingUrgent c = some e → source .urgent e.slot 0 e.firstPage)
    ∧ (∀ e, s.waitingUrgent c = none → s.dueEntry c = some e → source .bulletin e.slot (e.done + 1) e.firstPage)

/-- TELEX_PAGE_READ of a head item's first line (R47, R48, R142): a page that is not WRITTEN, or has no count in 1 to
248, or whose next field, reached by the reading, is out of range, makes the reading UNREADABLE and the item ends
BAD_TEXT without going on the air; the codes of a good page join the reading; here the channel takes no pick. Of the
lookahead of an item on the air (R47, R142, R148): a good page joins the reading and the chain; a bad one, or a bus
error with BUSERR, gives the decided end BAD_TEXT or BUS_FAULT, where none stands already, and the line on the air goes
on. Of the MORE page, read again (R144): MORE blocks once more with the timer started, END settles the line as final, or
with no line at a break point, a page number names the page to read, anything else is BAD_TEXT and a bus error
BUS_FAULT; a page the offset has passed is marked SENT when its next field is so found known (R146). That a page whose
count is below the index the reading starts at gives no code, its next field being judged at once, is the model's choice
(notes/assumptions/76.md). The line of a telex text (R45): codes are taken up to and including the first line-end code,
and at most 128 in a line; the codes taken and those left are the codes there were. A page whose codes are so taken into
the line of a reading leaves it with that line, settled and not final where codes are left; with none left the next
field is judged: END makes the line final, or no line where it is empty and no first line, a line that has ended is
settled and not final, and a line that has not goes on with the page named, or is BLOCKED at MORE; another next field is
BAD_TEXT (R47, R142). -/
def Obligations.TelexPageReadAndLines : Prop :=
  (∀ (c : Chan) (rd : Reading) (page walked start skip : Nat) (item : TelexItem) (bus : Bus) (s : State),
    s.power = true → bus.prompt = [] → bus.writes = [] → bus.errors = [] → s.Calm → s.takesNoPick c →
    s.telexOn c = none → (s.chan c).fetch.reading = some rd →
    rd.request = some (.read page walked start skip) → walked + 1 ≤ 255 → s.telexAt rd.slot = some item →
    item.channel = c →
    let h := s.pageHeader page
    let copy : PageCopy :=
      { num := page, walked := walked + 1, start := start, count := h.count, next := h.next
        rest := (s.pageText page h.count).drop skip }
    (h.state ≠ 1 ∨ h.count = 0 ∨ 248 < h.count ∨ (rd.takeFrom copy).condition = .unreadable .badText →
      ∃ t, exec (.telexPageRead c bus) s = .next t ∧ t.telex = s.telex.filter (fun x => x.slot != rd.slot)
      ∧ t.rack.backlog = s.rack.backlog ++ [s.takenAnswer rd.slot .badText item.progress true]
      ∧ (t.chan c).fetch.reading = none ∧ (t.chan c).state = (s.chan c).state)
    ∧ (h.state = 1 → 1 ≤ h.count → h.count ≤ 248 → (∀ r, (rd.takeFrom copy).condition ≠ .unreadable r) →
      ∃ t, exec (.telexPageRead c bus) s = .next t ∧ (t.chan c).fetch.reading = some (rd.takeFrom copy)
        ∧ ((rd.takeFrom copy).condition = .blocked → (t.chan c).fetch.reread = some 100)
        ∧ ((rd.takeFrom copy).condition ≠ .blocked → (t.chan c).fetch.reread = none)
        ∧ t.telex = s.telex ∧ t.rack = s.rack ∧ t.mem = s.mem ∧ (∀ d, d ≠ c → t.chan d = s.chan d)))
  ∧ (∀ (c : Chan) (rd : Reading) (item : TelexItem) (bus : Bus) (s : State), s.power = true → bus.prompt = [] →
    bus.writes = [] → s.Calm → (s.chan c).state = .sending → s.telexOn c = some item →
    (s.chan c).fetch.reading = some rd → (∀ p ∈ (s.chan c).fetch.chain, item.offset < p.start + p.count) →
    let goesOn (t : State) (decided : Option Result) : Prop :=
      (t.chan c).decided = decided ∧ (t.chan c).state = .sending ∧ (t.chan c).tx = (s.chan c).tx
      ∧ (t.chan c).segment = (s.chan c).segment ∧ (t.chan c).rest = (s.chan c).rest
      ∧ (t.chan c).onAir = (s.chan c).onAir ∧ t.telex = s.telex ∧ t.mem = s.mem
      ∧ (∀ d, d ≠ c → t.chan d = s.chan d)
    let unread (t : State) (r : Result) : Prop :=
      goesOn t ((s.chan c).decided.or (some r)) ∧ (t.chan c).fetch.reread = none
      ∧ ∃ x, (t.chan c).fetch.reading = some x ∧ x.condition = .unreadable r ∧ x.request = none
    (∀ page walked start skip, rd.request = some (.read page walked start skip) → walked + 1 ≤ 255 →
      let h := s.pageHeader page
      let got := rd.takeFrom { num := page, walked := walked + 1, start := start, count := h.count, next := h.next
                               rest := (s.pageText page h.count).drop skip }
      (Access.page page ∈ bus.errors → ∃ t, exec (.telexPageRead c bus) s = .next t ∧ unread t .busFault
        ∧ t.rack = { s.rack with events := s.rack.events ||| Flag.busErr.word })
      ∧ (bus.errors = [] → h.state ≠ 1 ∨ h.count = 0 ∨ 248 < h.count →
        ∃ t, exec (.telexPageRead c bus) s = .next t ∧ unread t .badText ∧ t.rack = s.rack)
      ∧ (bus.errors = [] → h.state = 1 → 1 ≤ h.count → h.count ≤ 248 → item.offset < start + h.count →
        ∃ t, exec (.telexPageRead c bus) s = .next t ∧ t.rack = s.rack ∧ (t.chan c).fetch.reading = some got
          ∧ (∀ r, got.condition = .unreadable r → goesOn t ((s.chan c).decided.or (some r)))
          ∧ ((∀ r, got.condition ≠ .unreadable r) → goesOn t (s.chan c).decided)
          ∧ (t.chan c).fetch.reread = (if got.condition = .blocked then some 100 else none)
          ∧ (t.chan c).fetch.chain = (s.chan c).fetch.chain
              ++ [{ num := page, walked := walked + 1, start := start, count := h.count, next := h.next }]))
    ∧ (∀ cp, rd.request = some .reread → rd.copy = some cp → cp.rest = [] →
      let next := (s.pageHeader cp.num).next
      (Access.page cp.num ∈ bus.errors → ∃ t, exec (.telexPageRead c bus) s = .next t ∧ unread t .busFault
        ∧ t.rack = { s.rack with events := s.rack.events ||| Flag.busErr.word })
      ∧ (bus.errors = [] → ∃ t, exec (.telexPageRead c bus) s = .next t ∧ t.rack = s.rack
        ∧ (isPage next = false → isEnd next = false → isMore next = false → unread t .badText)
        ∧ (isPage next = true ∨ isEnd next = true ∨ isMore next = true → goesOn t (s.chan c).decided
            ∧ ∃ x, (t.chan c).fetch.reading = some x ∧ x.line = rd.line
              ∧ (isMore next = true → x.condition = .blocked ∧ (t.chan c).fetch.reread = some 100)
              ∧ (isEnd next = true → (t.chan c).fetch.reread = none
                  ∧ (x.condition = if rd.line ≠ [] ∨ rd.first = true then .settled true else .settledNone))
              ∧ (isPage next = true → x.condition = .inProgress
                  ∧ x.request = some (.read next cp.walked (cp.start + cp.count) 0))))))
  ∧ (∀ (c : Chan) (rd : Reading) (item : TelexItem) (cp : PageCopy) (p : ChainPage) (bus : Bus) (s : State),
    s.power = true → s.MemoryCanonical → bus.prompt = [] → bus.writes = [] → bus.errors = [] → s.Calm →
    (s.chan c).state = .sending → s.telexOn c = some item → (s.chan c).fetch.reading = some rd →
    rd.request = some .reread → rd.copy = some cp → (s.chan c).fetch.chain = [p] → p.num = cp.num →
    p.walked = cp.walked →
    p.start + p.count ≤ item.offset →
    isPage (s.pageHeader cp.num).next = true ∨ isEnd (s.pageHeader cp.num).next = true →
    ∃ t, exec (.telexPageRead c bus) s = .next t ∧ (t.pageHeader p.num).state = 2 ∧ (t.chan c).fetch.chain = []
      ∧ t.telex = s.telex ∧ t.rack = s.rack)
  ∧ (∀ (lineEnd : Byte) (codes line taken left : List Byte) (ended : Bool), line.length < 128 →
    takeLine lineEnd codes line = (taken, left, ended) →
    taken ++ left = line ++ codes ∧ line <+: taken ∧ taken.length ≤ 128
      ∧ (ended = true → taken.getLast? = some lineEnd ∨ taken.length = 128)
      ∧ (ended = false → left = [] ∧ taken.length < 128 ∧ ∀ x ∈ codes, x ≠ lineEnd)
      ∧ ∀ x ∈ (taken.drop line.length).dropLast, x ≠ lineEnd)
  ∧ ∀ (rd : Reading) (cp : PageCopy) (taken left : List Byte) (ended : Bool),
    takeLine rd.lineEnd cp.rest rd.line = (taken, left, ended) →
    let x := rd.takeFrom cp
    x.slot = rd.slot ∧ x.first = rd.first ∧ x.lineEnd = rd.lineEnd ∧ x.line = taken
    ∧ x.copy = some { cp with rest := left }
    ∧ (left ≠ [] → x.condition = .settled false ∧ x.request = none)
    ∧ (left = [] →
      (isEnd cp.next = true → x.request = none
        ∧ x.condition = if ended = true ∨ taken ≠ [] ∨ rd.first = true then .settled true else .settledNone)
      ∧ (isPage cp.next = true ∨ isMore cp.next = true → ended = true →
          x.condition = .settled false ∧ x.request = none)
      ∧ (isPage cp.next = true → ended = false → x.condition = .inProgress
          ∧ x.request = some (.read cp.next cp.walked (cp.start + cp.count) 0))
      ∧ (isMore cp.next = true → ended = false → x.condition = .blocked ∧ x.request = none)
      ∧ (isEnd cp.next = false → isPage cp.next = false → isMore cp.next = false →
          x.condition = .unreadable .badText ∧ x.request = none))

/-- BULLETIN_PAGE_READ (R140, R141, R148): a good page joins the pages held, its codes ready to be sent. A read fails
the transmission when the page is not WRITTEN, its count is not 1 to 248, its next field is neither a page nor END, it
would be the 65th page, or a bus error ends it, which raises BUSERR; that the access of a 65th page is not made, so that
a bus error there raises no BUSERR, is the model's choice (notes/assumptions/71.md); the mark is taken up at the next character
boundary (the boundary has a statement of its own). A transmission in KEYING is ended at once, and the channel, for which
nothing else waits, is in HANG, also where a stop-key edge waits, which then cuts at the next boundary: that is the
model's choice (notes/assumptions/62.md). A FAULTED channel in the lead of a relay is not in KEYING, which is the model's
choice too (notes/assumptions/41.md). -/
def Obligations.BulletinPageReadJoinsOrFails : Prop :=
  ∀ (c : Chan) (b : BodyReading) (page : Nat) (bus : Bus) (s : State), s.power = true → bus.prompt = [] →
    bus.writes = [] → s.Calm → (s.chan c).fetch.body = some b → b.request = some page →
    let h := s.pageHeader page
    let nextGood : Prop := 1 ≤ h.next ∧ h.next ≤ 4095 ∨ h.next = 65535
    let bad : Prop := 64 ≤ b.walked ∨ bus.errors = [] ∧ (h.state ≠ 1 ∨ h.count = 0 ∨ 248 < h.count ∨ ¬ nextGood)
    (bus.errors = [] → b.walked < 64 → h.state = 1 → 1 ≤ h.count → h.count ≤ 248 → nextGood →
      exec (.bulletinPageRead c bus) s = .next (s.setChan c (fun ch => { ch with fetch := { ch.fetch with
        body := some { b with
          pages := b.pages ++ [{ num := page, walked := b.walked + 1, start := 0, count := h.count, next := h.next
                                 rest := s.pageText page h.count }]
          request := none, walked := b.walked + 1 } } })))
    ∧ (bad → (s.chan c).state ≠ .keying →
      exec (.bulletinPageRead c bus) s = .next (s.setChan c (fun ch => { ch with fetch := { ch.fetch with
        body := some { b with request := none, failed := true } } })))
    ∧ (Access.page page ∈ bus.errors → b.walked < 64 → (s.chan c).state ≠ .keying →
      ∃ t, exec (.bulletinPageRead c bus) s = .next t ∧ t.rack.events = s.rack.events ||| Flag.busErr.word
        ∧ (t.chan c).fetch.body = some { b with request := none, failed := true }
        ∧ (t.chan c).state = (s.chan c).state ∧ (t.chan c).tx = (s.chan c).tx)
    ∧ (∀ a e, bad → (s.chan c).state = .keying → (s.chan c).onAir = some a → a.kind = .distress → a.slot = e.slot →
      s.priority = [e] → e.distress = true → e.withdrawn = false → maskChans e.mask = [c] →
      (∀ d, e.out.get d = if d = c then .onAir else .notUsed) → (s.chan c).offWaits = false →
      (s.chan c).pendingHold = none → (s.chan c).pendingRetune = none → (s.chan c).follower = none →
      s.dueEntry c = none → s.head c = none → (s.chan c).item.hang ≠ 0 →
      ∃ t x, exec (.bulletinPageRead c bus) s = .next t ∧ (t.chan c).state = .hang ∧ (t.chan c).onAir = none
        ∧ (t.chan c).lead = none ∧ (t.chan c).hang = some (s.chan c).item.hang ∧ t.priority = []
        ∧ t.rack.backlog = s.rack.backlog ++ [s.takenAnswer e.slot .failed (.priority x) true] ∧ x.get c = .failed)

/-- MARKING_WALK_END (R147): a walk whose first page is WRITTEN with next field END marks that page SENT and stops; a
page that is not WRITTEN is left; a bus error on a read or a write raises BUSERR and stops it; each time the answer no
longer waits and the walks behind it are next. Over a chain of several pages, WRITTEN and each naming the next, the walk
marks every one of them SENT and changes no other byte. It stops after the last where that page's next field is END,
MORE or out of range, where the page it names is not WRITTEN or has been marked already, at the limit of pages, or at a
bus error on the next page's read or write, which raises BUSERR and leaves that page as it was. That the walk is made
whole in one step is the model's choice (notes/assumptions/10.md), as is the wrap of addresses
(notes/assumptions/4.md). -/
def Obligations.MarkingWalkMarksAndReleases : Prop :=
  ∀ (c : Chan) (w : Walk) (rest : List Walk) (bus : Bus) (s : State), s.power = true → bus.writes = [] →
    s.MemoryCanonical → (s.chan c).fetch.walks = w :: rest → 1 ≤ w.limit → 1 ≤ w.page → w.page ≤ 4095 →
    ∃ t, exec (.markingWalkEnd c bus) s = .next t ∧ (t.chan c).fetch.walks = rest
      ∧ (∀ a ∈ t.rack.backlog, a.slot = w.slot → a.walk = false)
      ∧ t.rack.backlog.length = s.rack.backlog.length
      ∧ (bus.errors = [] → (s.pageHeader w.page).state = 1 → (s.pageHeader w.page).next = 65535 →
          (t.pageHeader w.page).state = 2
            ∧ ∀ a, a ≠ busAddress s.rack.pageBase (256 * w.page) → Mem.read t.mem a = Mem.read s.mem a)
      ∧ (bus.errors = [] → (s.pageHeader w.page).state ≠ 1 → t.mem = s.mem)
      ∧ (Access.page w.page ∈ bus.errors → t.mem = s.mem ∧ t.rack.events = s.rack.events ||| Flag.busErr.word)
      ∧ (Access.page w.page ∉ bus.errors → Access.mark w.page ∈ bus.errors → (s.pageHeader w.page).state = 1 →
          t.mem = s.mem ∧ t.rack.events = s.rack.events ||| Flag.busErr.word)
      ∧ ∀ (chain : List Nat) (last : Nat), chain.head? = some w.page → chain.getLast? = some last → chain.Nodup →
        chain.length ≤ w.limit →
        (∀ n ∈ chain, 1 ≤ n ∧ n ≤ 4095 ∧ (s.pageHeader n).state = 1 ∧ Access.page n ∉ bus.errors
          ∧ Access.mark n ∉ bus.errors) →
        (∀ n k before after, chain = before ++ n :: k :: after → (s.pageHeader n).next = k) →
        let next := (s.pageHeader last).next
        let marked : Prop := (∀ n ∈ chain, (t.pageHeader n).state = 2)
          ∧ ∀ a, (∀ n ∈ chain, a ≠ busAddress s.rack.pageBase (256 * n)) → Mem.read t.mem a = Mem.read s.mem a
        (next = 0 ∨ 4095 < next ∨ chain.length = w.limit
            ∨ Access.page next ∉ bus.errors ∧ (next ∈ chain ∨ (s.pageHeader next).state ≠ 1) →
          marked ∧ t.rack.events = s.rack.events)
        ∧ (1 ≤ next → next ≤ 4095 → chain.length < w.limit → next ∉ chain →
          Access.page next ∈ bus.errors ∨ (s.pageHeader next).state = 1 ∧ Access.mark next ∈ bus.errors →
          marked ∧ t.rack.events = s.rack.events ||| Flag.busErr.word)

/-! ## The whole part -/

/-- Reset meets the invariants of the part. -/
def Obligations.ResetMeetsInvariants : Prop := State.reset.Sound

/-- Every step keeps the invariants of the part: the clock in its day (R1), the capacities of the pool, its queues, the
calendar and the Priority List (R69, R103, R123), fault counts of at most 3 (R150), the bases closed while RUN is set
(R165), no slot held by two items (R164), a COMMIT at most 250 ms old (R184), and host memory in its canonical
form. -/
def Obligations.StepKeepsInvariants : Prop := ∀ s t : State, s.Sound → step s = .next t → t.Sound

/-- Every step keeps each slot held once (R164, R168, R173): no slot is held by two of the items of the pool, the
entries of the calendar and of the Priority List, the pending HOLDs and RETUNEs, the retunes in progress, the COMMIT in
progress and the answers of the backlog; what the part answers, it holds no longer but by its answer. -/
def Obligations.StepHoldsEachSlotOnce : Prop :=
  ∀ s t : State, s.heldSlots.Nodup → step s = .next t → t.heldSlots.Nodup

/-- What the channels, their timers and lines and the clock's arrivals and limits cannot change (R165 to R167, R3,
R178, R146, R147): the clock, the store and every register but STATUS, in which they clear no flag; the sweep and the
taking of dockets; and of host memory, beside what the host itself stores, only state bytes of page blocks, which then
read SENT. -/
def Obligations.ChannelCommandsLeaveRackAlone : Prop :=
  ∀ (i : Instr) (bus : Bus) (s t : State), Instr.channelBus i = some bus → exec i s = .next t →
    t.clock = s.clock ∧ t.store = s.store ∧ t.power = s.power
    ∧ t.rack = { s.rack with events := t.rack.events, backlog := t.rack.backlog }
    ∧ (∀ k, s.rack.events.getLsbD k = true → t.rack.events.getLsbD k = true)
    ∧ t.telex.length ≤ s.telex.length ∧ t.calendar.length ≤ s.calendar.length
    ∧ (s.MemoryCanonical → bus.writes = [] → ∀ a, Mem.read t.mem a = Mem.read s.mem a
        ∨ (s.pageStateAddress a ∧ Mem.read t.mem a = 2))

/-- What no command does: every command is carried out and leaves the queue of commands alone; only a tick, a SETCLOCK
docket and power move the clock, and only power makes it NOT_SET again (R1, R3, R6); only STATUS_WRITE, a reset and
power clear an event flag (R166). That every command is carried out in every state, also one whose time has not come,
is the model's choice (notes/assumptions/1.md). -/
def Obligations.CommandsLeaveClockFlagsAndQueue : Prop :=
  ∀ (i : Instr) (s : State), ∃ t, exec i s = .next t ∧ t.pending = s.pending
    ∧ (i ≠ .powerOn → i ≠ .powerLoss →
      (s.clock.isSet = true → t.clock.isSet = true)
      ∧ (i ≠ .stationClockTick → (∀ slot bus, i ≠ .setclock slot bus) → t.clock = s.clock)
      ∧ ((∀ value, i ≠ .statusWrite value) → (∀ run sweep, i ≠ .controlReset run sweep) →
        (∀ present, i ≠ .resetInput present) → (∀ success, i ≠ .commitCompletion success) →
        ∀ k, s.rack.events.getLsbD k = true → t.rack.events.getLsbD k = true))
end

