-- ==== Sys2Proof/Laws/Memory.lean ====
section
/-! SUPPORT. Host memory: a read after a write, and the canonical form, which every operation over memory keeps. -/

namespace Sys2Proof.Machine

/-! ## Reading -/

@[simp] theorem Mem.read_nil (a : Nat) : Mem.read [] a = Mem.blank := rfl

/-- The canonical form from a bound holds from any smaller bound. -/
theorem Mem.wfFrom_mono {m : List Host.Cell} : ∀ {lo lo' : Nat}, lo' ≤ lo → Mem.wfFrom lo m = true →
    Mem.wfFrom lo' m = true := by
  intro lo lo' h hw
  cases m with
  | nil => rfl
  | cons p rest =>
    obtain ⟨k, v⟩ := p
    simp only [Mem.wfFrom, Bool.and_eq_true, decide_eq_true_eq] at hw ⊢
    exact ⟨⟨Nat.le_trans h hw.1.1, hw.1.2⟩, hw.2⟩

/-- Nothing is listed below the bound. -/
theorem Mem.read_below {m : List Host.Cell} : ∀ {lo a : Nat}, Mem.wfFrom lo m = true → a < lo →
    Mem.read m a = Mem.blank := by
  induction m with
  | nil => intro lo a _ _; rfl
  | cons p rest ih =>
    obtain ⟨k, v⟩ := p
    intro lo a hw ha
    simp only [Mem.wfFrom, Bool.and_eq_true, decide_eq_true_eq] at hw
    have hk : k ≠ a := by omega
    simp only [Mem.read, if_neg hk]
    exact ih hw.2 (by omega)

/-- A byte written is read back, and every other byte reads as before. -/
theorem Mem.read_write {m : List Host.Cell} : ∀ {lo : Nat} (a x : Nat) (b : Byte), Mem.wfFrom lo m = true →
    Mem.read (Mem.write m a b) x = if a = x then b else Mem.read m x := by
  induction m with
  | nil =>
    intro lo a x b _
    by_cases hb : b = Mem.blank
    · simp [Mem.write, Mem.read, hb]
    · simp [Mem.write, Mem.read, hb]
  | cons p rest ih =>
    obtain ⟨k, v⟩ := p
    intro lo a x b hw
    simp only [Mem.wfFrom, Bool.and_eq_true, decide_eq_true_eq] at hw
    have below : ∀ y, y ≤ k → Mem.read rest y = Mem.blank := fun y hy => Mem.read_below hw.2 (by omega)
    by_cases h1 : a < k
    · by_cases hb : b = Mem.blank
      · by_cases hx : a = x
        · subst hx
          simp [Mem.write, Mem.read, h1, hb, below a (by omega), show k ≠ a by omega]
        · simp [Mem.write, h1, hb, hx]
      · simp [Mem.write, Mem.read, h1, hb]
    · by_cases h2 : a = k
      · subst h2
        by_cases hb : b = Mem.blank
        · by_cases hx : a = x
          · subst hx; simp [Mem.write, hb, below a (by omega)]
          · simp [Mem.write, Mem.read, hb, hx]
        · by_cases hx : a = x <;> simp [Mem.write, Mem.read, hb, hx]
      · simp only [Mem.write, if_neg h1, if_neg h2, Mem.read]
        rw [ih a x b hw.2]
        by_cases hk : k = x
        · have : a ≠ x := by omega
          simp [hk, this]
        · simp [hk]

/-- A byte written is read back. -/
theorem Mem.read_write_same {m : List Host.Cell} {a : Nat} {b : Byte} (h : Mem.wf m = true) :
    Mem.read (Mem.write m a b) a = b := by
  rw [Mem.read_write a a b h, if_pos rfl]

/-- A write leaves every other byte alone. -/
theorem Mem.read_write_other {m : List Host.Cell} {a x : Nat} {b : Byte} (h : Mem.wf m = true) (hx : a ≠ x) :
    Mem.read (Mem.write m a b) x = Mem.read m x := by
  rw [Mem.read_write a x b h, if_neg hx]

/-! ## The canonical form -/

/-- A write keeps the canonical form from any bound that the address reaches. -/
theorem Mem.wfFrom_write {m : List Host.Cell} : ∀ {lo : Nat} (a : Nat) (b : Byte), lo ≤ a → Mem.wfFrom lo m = true →
    Mem.wfFrom lo (Mem.write m a b) = true := by
  induction m with
  | nil =>
    intro lo a b ha _
    by_cases hb : b = Mem.blank <;> simp [Mem.write, Mem.wfFrom, hb, ha]
  | cons p rest ih =>
    obtain ⟨k, v⟩ := p
    intro lo a b ha hw
    have hw' := hw
    simp only [Mem.wfFrom, Bool.and_eq_true, decide_eq_true_eq] at hw
    by_cases h1 : a < k
    · by_cases hb : b = Mem.blank
      · simp [Mem.write, h1, hb, hw']
      · simp only [Mem.write, if_pos h1, if_neg hb, Mem.wfFrom, Bool.and_eq_true, decide_eq_true_eq]
        exact ⟨⟨ha, hb⟩, ⟨h1, hw.1.2⟩, hw.2⟩
    · by_cases h2 : a = k
      · by_cases hb : b = Mem.blank
        · simp only [Mem.write, if_neg h1, if_pos h2, if_pos hb]
          exact Mem.wfFrom_mono (by omega) hw.2
        · simp only [Mem.write, if_neg h1, if_pos h2, if_neg hb, Mem.wfFrom, Bool.and_eq_true, decide_eq_true_eq]
          exact ⟨⟨ha, hb⟩, h2 ▸ hw.2⟩
      · simp only [Mem.write, if_neg h1, if_neg h2, Mem.wfFrom, Bool.and_eq_true, decide_eq_true_eq]
        exact ⟨hw.1, ih a b (by omega) hw.2⟩

/-- A write keeps the canonical form. -/
theorem Mem.wf_write {m : List Host.Cell} {a : Nat} {b : Byte} (h : Mem.wf m = true) :
    Mem.wf (Mem.write m a b) = true := Mem.wfFrom_write a b (Nat.zero_le a) h

@[simp] theorem Mem.store_nil (m : List Host.Cell) : Mem.store m [] = m := rfl

@[simp] theorem Mem.store_cons (m : List Host.Cell) (cell : Host.Cell) (cells : List Host.Cell) :
    Mem.store m (cell :: cells) = Mem.store (Mem.write m cell.1 cell.2) cells := rfl

theorem Mem.store_append (m : List Host.Cell) (xs ys : List Host.Cell) :
    Mem.store m (xs ++ ys) = Mem.store (Mem.store m xs) ys := List.foldl_append ..

/-- Storing bytes keeps the canonical form. -/
theorem Mem.wf_store {cells : List Host.Cell} : ∀ {m : List Host.Cell}, Mem.wf m = true →
    Mem.wf (Mem.store m cells) = true := by
  induction cells with
  | nil => intro m h; exact h
  | cons cell rest ih => intro m h; exact ih (Mem.wf_write h)

/-- Storing bytes leaves alone every byte that is none of them. -/
theorem Mem.read_store_other {cells : List Host.Cell} : ∀ {m : List Host.Cell} {x : Nat}, Mem.wf m = true →
    (∀ cell ∈ cells, cell.1 ≠ x) → Mem.read (Mem.store m cells) x = Mem.read m x := by
  induction cells with
  | nil => intro m x _ _; rfl
  | cons cell rest ih =>
    intro m x h hx
    rw [Mem.store_cons, ih (Mem.wf_write h) (fun c hc => hx c (List.mem_cons_of_mem _ hc)),
      Mem.read_write_other h (hx cell (List.mem_cons_self ..))]

/-- A byte stored and not stored again after it is read back. -/
theorem Mem.read_store_last {m xs ys : List Host.Cell} {a : Nat} {b : Byte} (h : Mem.wf m = true)
    (hy : ∀ cell ∈ ys, cell.1 ≠ a) : Mem.read (Mem.store m (xs ++ (a, b) :: ys)) a = b := by
  rw [Mem.store_append, Mem.store_cons, Mem.read_store_other (Mem.wf_write (Mem.wf_store h)) hy,
    Mem.read_write_same (Mem.wf_store h)]

/-- Reset's memory has the canonical form. -/
theorem State.reset_mem_wf : Mem.wf State.reset.mem = true := rfl

/-- The host's own stores keep the canonical form. -/
theorem State.hostStores_wf {bus : Bus} {s : State} (h : Mem.wf s.mem = true) : Mem.wf (s.hostStores bus).mem = true :=
  Mem.wf_store h

/-- Storing at offsets of a base keeps the canonical form. -/
theorem State.storeAt_wf {base : Word} {cells : List (Nat × Byte)} {s : State} (h : Mem.wf s.mem = true) :
    Mem.wf (s.storeAt base cells).mem = true := Mem.wf_store h

/-- Storing into a slot keeps the canonical form. -/
theorem State.storeSlot_wf {slot : Nat} {cells : List (Nat × Byte)} {s : State} (h : Mem.wf s.mem = true) :
    Mem.wf (s.storeSlot slot cells).mem = true := Mem.wf_store h

/-- Marking a page SENT keeps the canonical form. -/
theorem State.markSent_wf {n : Nat} {s : State} (h : Mem.wf s.mem = true) : Mem.wf (s.markSent n).mem = true :=
  Mem.wf_store h

/-! ## Fields: consecutive bytes from a base -/

/-- Two offsets less than 2^32 apart lead to one address only if they are the same. -/
theorem busAddress_inj {base : Word} {o p : Nat} (h : o < p + 4294967296) (k : p < o + 4294967296)
    (e : busAddress base o = busAddress base p) : o = p := by
  unfold busAddress at e
  omega

/-- The bytes of a field stored, read one by one. -/
theorem Mem.read_store_field {base : Word} {bytes : List Byte} : ∀ {m : List Host.Cell} {o i : Nat}, Mem.wf m = true →
    o + bytes.length ≤ o + 4294967296 → (h : i < bytes.length) →
    Mem.read (Mem.store m ((bytesAt o bytes).map (fun p => (busAddress base p.1, p.2)))) (busAddress base (o + i))
      = bytes[i] := by
  have after : ∀ (l : List Byte) (o p : Nat), o < p → p + l.length ≤ o + 4294967296 →
      ∀ cell ∈ (bytesAt p l).map (fun q => (busAddress base q.1, q.2)), cell.1 ≠ busAddress base o := by
    intro l
    induction l with
    | nil => intro o p _ _ cell x; cases x
    | cons b l ih =>
      intro o p h k cell x
      simp only [bytesAt, List.map_cons, List.mem_cons, List.length_cons] at x k
      rcases x with rfl | x
      · intro e
        have := busAddress_inj (by omega) (by omega) e
        omega
      · exact ih o (p + 1) (by omega) (by omega) cell x
  induction bytes with
  | nil => intro m o i _ _ h; cases h
  | cons b l ih =>
    intro m o i hw k h
    simp only [List.length_cons] at k h
    cases i with
    | zero =>
      show Mem.read (Mem.store (Mem.write m (busAddress base o) b) _) (busAddress base o) = b
      rw [Mem.read_store_other (Mem.wf_write hw) (after l o (o + 1) (by omega) (by omega)), Mem.read_write_same hw]
    | succ i =>
      have e : o + (i + 1) = o + 1 + i := by omega
      rw [e]
      exact ih (Mem.wf_write hw) (by omega) (by omega)

/-- A field that has been stored reads back whole. -/
theorem State.readBytes_storeAt {base : Word} {o : Nat} {bytes : List Byte} {s : State} (h : Mem.wf s.mem = true)
    (k : bytes.length ≤ 4294967296) : (s.storeAt base (bytesAt o bytes)).readBytes base o bytes.length = bytes := by
  refine List.ext_getElem (by simp [State.readBytes]) (fun i x y => ?_)
  simp only [State.readBytes, List.getElem_map, List.getElem_range]
  exact Mem.read_store_field h (by omega) y

/-- The addresses at which a field is stored. -/
theorem mem_bytesAt {bytes : List Byte} : ∀ {o : Nat} {p : Nat × Byte}, p ∈ bytesAt o bytes →
    ∃ k, k < bytes.length ∧ p.1 = o + k := by
  induction bytes with
  | nil => intro o p x; cases x
  | cons b l ih =>
    intro o p x
    simp only [bytesAt, List.mem_cons] at x
    rcases x with rfl | x
    · exact ⟨0, by simp, rfl⟩
    · obtain ⟨k, hk, e⟩ := ih x
      exact ⟨k + 1, by simp only [List.length_cons]; omega, by omega⟩

/-- Bytes stored at offsets of a base leave every other address alone. -/
theorem State.read_storeAt_other {base : Word} {cells : List (Nat × Byte)} {s : State} {a : Nat}
    (h : Mem.wf s.mem = true) (k : ∀ p ∈ cells, a ≠ busAddress base p.1) :
    Mem.read (s.storeAt base cells).mem a = Mem.read s.mem a := by
  refine Mem.read_store_other h (fun cell x => ?_)
  obtain ⟨p, hp, rfl⟩ := List.mem_map.1 x
  exact (k p hp).symm

end Sys2Proof.Machine
end

