-- ==== Sys2Proof/Laws/State.lean ====
section
/-! SUPPORT. The small lemmas of State: what each update of it leaves and gives, field by field. -/

namespace Sys2Proof.Machine

/-! ## Six values -/

@[simp] theorem Six.get_set_same {α : Type} (x : Six α) (c : Chan) (v : α) : (x.set c v).get c = v := by
  cases c <;> rfl

theorem Six.get_set_other {α : Type} (x : Six α) {c d : Chan} (v : α) (h : d ≠ c) : (x.set c v).get d = x.get d := by
  cases c <;> cases d <;> first | rfl | exact absurd rfl h

@[simp] theorem Six.get_ofFn {α : Type} (f : Chan → α) (c : Chan) : (Six.ofFn f).get c = f c := by cases c <;> rfl

@[simp] theorem Six.get_all {α : Type} (v : α) (c : Chan) : (Six.all v).get c = v := by cases c <;> rfl

/-- Six values are equal when each channel's are. -/
theorem Six.ext_get {α : Type} {x y : Six α} (h : ∀ c, x.get c = y.get c) : x = y := by
  obtain ⟨a1, a2, a3, a4, a5, a6⟩ := x
  obtain ⟨b1, b2, b3, b4, b5, b6⟩ := y
  have h1 : a1 = b1 := h .c1
  have h2 : a2 = b2 := h .c2
  have h3 : a3 = b3 := h .c3
  have h4 : a4 = b4 := h .c4
  have h5 : a5 = b5 := h .c5
  have h6 : a6 = b6 := h .c6
  subst h1 h2 h3 h4 h5 h6
  rfl

@[simp] theorem Chan.mem_all (c : Chan) : c ∈ Chan.all := by cases c <;> decide

/-! ## One channel's record -/

@[simp] theorem State.chan_setChan_same (s : State) (c : Chan) (f : Channel → Channel) :
    (s.setChan c f).chan c = f (s.chan c) := Six.get_set_same ..

theorem State.chan_setChan_other (s : State) {c d : Chan} (f : Channel → Channel) (h : d ≠ c) :
    (s.setChan c f).chan d = s.chan d := Six.get_set_other _ _ h

theorem State.chan_setChan (s : State) (c d : Chan) (f : Channel → Channel) :
    (s.setChan c f).chan d = if d = c then f (s.chan c) else s.chan d := by
  by_cases h : d = c
  · subst h; simp
  · rw [State.chan_setChan_other s f h, if_neg h]

/-! ## A channel's record changed -/

@[simp] theorem State.setChan_power (s : State) (c : Chan) (f : Channel → Channel) :
    (s.setChan c f).power = s.power := rfl

@[simp] theorem State.setChan_resetPin (s : State) (c : Chan) (f : Channel → Channel) :
    (s.setChan c f).resetPin = s.resetPin := rfl

@[simp] theorem State.setChan_clock (s : State) (c : Chan) (f : Channel → Channel) :
    (s.setChan c f).clock = s.clock := rfl

@[simp] theorem State.setChan_rack (s : State) (c : Chan) (f : Channel → Channel) : (s.setChan c f).rack = s.rack := rfl

@[simp] theorem State.setChan_store (s : State) (c : Chan) (f : Channel → Channel) :
    (s.setChan c f).store = s.store := rfl

@[simp] theorem State.setChan_telex (s : State) (c : Chan) (f : Channel → Channel) :
    (s.setChan c f).telex = s.telex := rfl

@[simp] theorem State.setChan_calendar (s : State) (c : Chan) (f : Channel → Channel) :
    (s.setChan c f).calendar = s.calendar := rfl

@[simp] theorem State.setChan_priority (s : State) (c : Chan) (f : Channel → Channel) :
    (s.setChan c f).priority = s.priority := rfl

@[simp] theorem State.setChan_mem (s : State) (c : Chan) (f : Channel → Channel) : (s.setChan c f).mem = s.mem := rfl

@[simp] theorem State.setChan_fresh (s : State) (c : Chan) (f : Channel → Channel) :
    (s.setChan c f).fresh = s.fresh := rfl

@[simp] theorem State.setChan_pending (s : State) (c : Chan) (f : Channel → Channel) :
    (s.setChan c f).pending = s.pending := rfl

/-! ## A telex item changed -/

@[simp] theorem State.setTelex_power (s : State) (slot : Nat) (f : TelexItem → TelexItem) :
    (s.setTelex slot f).power = s.power := rfl

@[simp] theorem State.setTelex_resetPin (s : State) (slot : Nat) (f : TelexItem → TelexItem) :
    (s.setTelex slot f).resetPin = s.resetPin := rfl

@[simp] theorem State.setTelex_clock (s : State) (slot : Nat) (f : TelexItem → TelexItem) :
    (s.setTelex slot f).clock = s.clock := rfl

@[simp] theorem State.setTelex_rack (s : State) (slot : Nat) (f : TelexItem → TelexItem) :
    (s.setTelex slot f).rack = s.rack := rfl

@[simp] theorem State.setTelex_store (s : State) (slot : Nat) (f : TelexItem → TelexItem) :
    (s.setTelex slot f).store = s.store := rfl

@[simp] theorem State.setTelex_telex (s : State) (slot : Nat) (f : TelexItem → TelexItem) :
    (s.setTelex slot f).telex = s.telex.map (fun i => if i.slot = slot then f i else i) := rfl

@[simp] theorem State.setTelex_calendar (s : State) (slot : Nat) (f : TelexItem → TelexItem) :
    (s.setTelex slot f).calendar = s.calendar := rfl

@[simp] theorem State.setTelex_priority (s : State) (slot : Nat) (f : TelexItem → TelexItem) :
    (s.setTelex slot f).priority = s.priority := rfl

@[simp] theorem State.setTelex_chans (s : State) (slot : Nat) (f : TelexItem → TelexItem) :
    (s.setTelex slot f).chans = s.chans := rfl

@[simp] theorem State.setTelex_mem (s : State) (slot : Nat) (f : TelexItem → TelexItem) :
    (s.setTelex slot f).mem = s.mem := rfl

@[simp] theorem State.setTelex_fresh (s : State) (slot : Nat) (f : TelexItem → TelexItem) :
    (s.setTelex slot f).fresh = s.fresh := rfl

@[simp] theorem State.setTelex_pending (s : State) (slot : Nat) (f : TelexItem → TelexItem) :
    (s.setTelex slot f).pending = s.pending := rfl

@[simp] theorem State.setTelex_chan (s : State) (slot : Nat) (f : TelexItem → TelexItem) (d : Chan) :
    (s.setTelex slot f).chan d = s.chan d := rfl

/-! ## A calendar entry changed -/

@[simp] theorem State.setEntry_power (s : State) (slot : Nat) (f : CalEntry → CalEntry) :
    (s.setEntry slot f).power = s.power := rfl

@[simp] theorem State.setEntry_resetPin (s : State) (slot : Nat) (f : CalEntry → CalEntry) :
    (s.setEntry slot f).resetPin = s.resetPin := rfl

@[simp] theorem State.setEntry_clock (s : State) (slot : Nat) (f : CalEntry → CalEntry) :
    (s.setEntry slot f).clock = s.clock := rfl

@[simp] theorem State.setEntry_rack (s : State) (slot : Nat) (f : CalEntry → CalEntry) :
    (s.setEntry slot f).rack = s.rack := rfl

@[simp] theorem State.setEntry_store (s : State) (slot : Nat) (f : CalEntry → CalEntry) :
    (s.setEntry slot f).store = s.store := rfl

@[simp] theorem State.setEntry_telex (s : State) (slot : Nat) (f : CalEntry → CalEntry) :
    (s.setEntry slot f).telex = s.telex := rfl

@[simp] theorem State.setEntry_calendar (s : State) (slot : Nat) (f : CalEntry → CalEntry) :
    (s.setEntry slot f).calendar = s.calendar.map (fun e => if e.slot = slot then f e else e) := rfl

@[simp] theorem State.setEntry_priority (s : State) (slot : Nat) (f : CalEntry → CalEntry) :
    (s.setEntry slot f).priority = s.priority := rfl

@[simp] theorem State.setEntry_chans (s : State) (slot : Nat) (f : CalEntry → CalEntry) :
    (s.setEntry slot f).chans = s.chans := rfl

@[simp] theorem State.setEntry_mem (s : State) (slot : Nat) (f : CalEntry → CalEntry) :
    (s.setEntry slot f).mem = s.mem := rfl

@[simp] theorem State.setEntry_fresh (s : State) (slot : Nat) (f : CalEntry → CalEntry) :
    (s.setEntry slot f).fresh = s.fresh := rfl

@[simp] theorem State.setEntry_pending (s : State) (slot : Nat) (f : CalEntry → CalEntry) :
    (s.setEntry slot f).pending = s.pending := rfl

@[simp] theorem State.setEntry_chan (s : State) (slot : Nat) (f : CalEntry → CalEntry) (d : Chan) :
    (s.setEntry slot f).chan d = s.chan d := rfl

/-! ## An entry of the Priority List changed -/

@[simp] theorem State.setPrio_power (s : State) (slot : Nat) (f : PrioEntry → PrioEntry) :
    (s.setPrio slot f).power = s.power := rfl

@[simp] theorem State.setPrio_resetPin (s : State) (slot : Nat) (f : PrioEntry → PrioEntry) :
    (s.setPrio slot f).resetPin = s.resetPin := rfl

@[simp] theorem State.setPrio_clock (s : State) (slot : Nat) (f : PrioEntry → PrioEntry) :
    (s.setPrio slot f).clock = s.clock := rfl

@[simp] theorem State.setPrio_rack (s : State) (slot : Nat) (f : PrioEntry → PrioEntry) :
    (s.setPrio slot f).rack = s.rack := rfl

@[simp] theorem State.setPrio_store (s : State) (slot : Nat) (f : PrioEntry → PrioEntry) :
    (s.setPrio slot f).store = s.store := rfl

@[simp] theorem State.setPrio_telex (s : State) (slot : Nat) (f : PrioEntry → PrioEntry) :
    (s.setPrio slot f).telex = s.telex := rfl

@[simp] theorem State.setPrio_calendar (s : State) (slot : Nat) (f : PrioEntry → PrioEntry) :
    (s.setPrio slot f).calendar = s.calendar := rfl

@[simp] theorem State.setPrio_priority (s : State) (slot : Nat) (f : PrioEntry → PrioEntry) :
    (s.setPrio slot f).priority = s.priority.map (fun e => if e.slot = slot then f e else e) := rfl

@[simp] theorem State.setPrio_chans (s : State) (slot : Nat) (f : PrioEntry → PrioEntry) :
    (s.setPrio slot f).chans = s.chans := rfl

@[simp] theorem State.setPrio_mem (s : State) (slot : Nat) (f : PrioEntry → PrioEntry) :
    (s.setPrio slot f).mem = s.mem := rfl

@[simp] theorem State.setPrio_fresh (s : State) (slot : Nat) (f : PrioEntry → PrioEntry) :
    (s.setPrio slot f).fresh = s.fresh := rfl

@[simp] theorem State.setPrio_pending (s : State) (slot : Nat) (f : PrioEntry → PrioEntry) :
    (s.setPrio slot f).pending = s.pending := rfl

@[simp] theorem State.setPrio_chan (s : State) (slot : Nat) (f : PrioEntry → PrioEntry) (d : Chan) :
    (s.setPrio slot f).chan d = s.chan d := rfl

/-! ## A flag raised -/

@[simp] theorem State.raise_power (s : State) (f : Flag) : (s.raise f).power = s.power := rfl

@[simp] theorem State.raise_resetPin (s : State) (f : Flag) : (s.raise f).resetPin = s.resetPin := rfl

@[simp] theorem State.raise_clock (s : State) (f : Flag) : (s.raise f).clock = s.clock := rfl

@[simp] theorem State.raise_rack (s : State) (f : Flag) :
    (s.raise f).rack = { s.rack with events := s.rack.events ||| f.word } := rfl

@[simp] theorem State.raise_store (s : State) (f : Flag) : (s.raise f).store = s.store := rfl

@[simp] theorem State.raise_telex (s : State) (f : Flag) : (s.raise f).telex = s.telex := rfl

@[simp] theorem State.raise_calendar (s : State) (f : Flag) : (s.raise f).calendar = s.calendar := rfl

@[simp] theorem State.raise_priority (s : State) (f : Flag) : (s.raise f).priority = s.priority := rfl

@[simp] theorem State.raise_chans (s : State) (f : Flag) : (s.raise f).chans = s.chans := rfl

@[simp] theorem State.raise_mem (s : State) (f : Flag) : (s.raise f).mem = s.mem := rfl

@[simp] theorem State.raise_fresh (s : State) (f : Flag) : (s.raise f).fresh = s.fresh := rfl

@[simp] theorem State.raise_pending (s : State) (f : Flag) : (s.raise f).pending = s.pending := rfl

@[simp] theorem State.raise_chan (s : State) (f : Flag) (d : Chan) : (s.raise f).chan d = s.chan d := rfl

/-! ## Bytes stored at a base -/

@[simp] theorem State.storeAt_power (s : State) (base : Word) (cells : List (Nat × Byte)) :
    (s.storeAt base cells).power = s.power := rfl

@[simp] theorem State.storeAt_resetPin (s : State) (base : Word) (cells : List (Nat × Byte)) :
    (s.storeAt base cells).resetPin = s.resetPin := rfl

@[simp] theorem State.storeAt_clock (s : State) (base : Word) (cells : List (Nat × Byte)) :
    (s.storeAt base cells).clock = s.clock := rfl

@[simp] theorem State.storeAt_rack (s : State) (base : Word) (cells : List (Nat × Byte)) :
    (s.storeAt base cells).rack = s.rack := rfl

@[simp] theorem State.storeAt_store (s : State) (base : Word) (cells : List (Nat × Byte)) :
    (s.storeAt base cells).store = s.store := rfl

@[simp] theorem State.storeAt_telex (s : State) (base : Word) (cells : List (Nat × Byte)) :
    (s.storeAt base cells).telex = s.telex := rfl

@[simp] theorem State.storeAt_calendar (s : State) (base : Word) (cells : List (Nat × Byte)) :
    (s.storeAt base cells).calendar = s.calendar := rfl

@[simp] theorem State.storeAt_priority (s : State) (base : Word) (cells : List (Nat × Byte)) :
    (s.storeAt base cells).priority = s.priority := rfl

@[simp] theorem State.storeAt_chans (s : State) (base : Word) (cells : List (Nat × Byte)) :
    (s.storeAt base cells).chans = s.chans := rfl

@[simp] theorem State.storeAt_fresh (s : State) (base : Word) (cells : List (Nat × Byte)) :
    (s.storeAt base cells).fresh = s.fresh := rfl

@[simp] theorem State.storeAt_pending (s : State) (base : Word) (cells : List (Nat × Byte)) :
    (s.storeAt base cells).pending = s.pending := rfl

@[simp] theorem State.storeAt_chan (s : State) (base : Word) (cells : List (Nat × Byte)) (d : Chan) :
    (s.storeAt base cells).chan d = s.chan d := rfl

/-! ## Bytes stored into a slot -/

@[simp] theorem State.storeSlot_power (s : State) (slot : Nat) (cells : List (Nat × Byte)) :
    (s.storeSlot slot cells).power = s.power := rfl

@[simp] theorem State.storeSlot_resetPin (s : State) (slot : Nat) (cells : List (Nat × Byte)) :
    (s.storeSlot slot cells).resetPin = s.resetPin := rfl

@[simp] theorem State.storeSlot_clock (s : State) (slot : Nat) (cells : List (Nat × Byte)) :
    (s.storeSlot slot cells).clock = s.clock := rfl

@[simp] theorem State.storeSlot_rack (s : State) (slot : Nat) (cells : List (Nat × Byte)) :
    (s.storeSlot slot cells).rack = s.rack := rfl

@[simp] theorem State.storeSlot_store (s : State) (slot : Nat) (cells : List (Nat × Byte)) :
    (s.storeSlot slot cells).store = s.store := rfl

@[simp] theorem State.storeSlot_telex (s : State) (slot : Nat) (cells : List (Nat × Byte)) :
    (s.storeSlot slot cells).telex = s.telex := rfl

@[simp] theorem State.storeSlot_calendar (s : State) (slot : Nat) (cells : List (Nat × Byte)) :
    (s.storeSlot slot cells).calendar = s.calendar := rfl

@[simp] theorem State.storeSlot_priority (s : State) (slot : Nat) (cells : List (Nat × Byte)) :
    (s.storeSlot slot cells).priority = s.priority := rfl

@[simp] theorem State.storeSlot_chans (s : State) (slot : Nat) (cells : List (Nat × Byte)) :
    (s.storeSlot slot cells).chans = s.chans := rfl

@[simp] theorem State.storeSlot_fresh (s : State) (slot : Nat) (cells : List (Nat × Byte)) :
    (s.storeSlot slot cells).fresh = s.fresh := rfl

@[simp] theorem State.storeSlot_pending (s : State) (slot : Nat) (cells : List (Nat × Byte)) :
    (s.storeSlot slot cells).pending = s.pending := rfl

@[simp] theorem State.storeSlot_chan (s : State) (slot : Nat) (cells : List (Nat × Byte)) (d : Chan) :
    (s.storeSlot slot cells).chan d = s.chan d := rfl

/-! ## A page marked SENT -/

@[simp] theorem State.markSent_power (s : State) (n : Nat) : (s.markSent n).power = s.power := rfl

@[simp] theorem State.markSent_resetPin (s : State) (n : Nat) : (s.markSent n).resetPin = s.resetPin := rfl

@[simp] theorem State.markSent_clock (s : State) (n : Nat) : (s.markSent n).clock = s.clock := rfl

@[simp] theorem State.markSent_rack (s : State) (n : Nat) : (s.markSent n).rack = s.rack := rfl

@[simp] theorem State.markSent_store (s : State) (n : Nat) : (s.markSent n).store = s.store := rfl

@[simp] theorem State.markSent_telex (s : State) (n : Nat) : (s.markSent n).telex = s.telex := rfl

@[simp] theorem State.markSent_calendar (s : State) (n : Nat) : (s.markSent n).calendar = s.calendar := rfl

@[simp] theorem State.markSent_priority (s : State) (n : Nat) : (s.markSent n).priority = s.priority := rfl

@[simp] theorem State.markSent_chans (s : State) (n : Nat) : (s.markSent n).chans = s.chans := rfl

@[simp] theorem State.markSent_fresh (s : State) (n : Nat) : (s.markSent n).fresh = s.fresh := rfl

@[simp] theorem State.markSent_pending (s : State) (n : Nat) : (s.markSent n).pending = s.pending := rfl

@[simp] theorem State.markSent_chan (s : State) (n : Nat) (d : Chan) : (s.markSent n).chan d = s.chan d := rfl

/-! ## The host's stores -/

@[simp] theorem State.hostStores_power (s : State) (bus : Bus) : (s.hostStores bus).power = s.power := rfl

@[simp] theorem State.hostStores_resetPin (s : State) (bus : Bus) : (s.hostStores bus).resetPin = s.resetPin := rfl

@[simp] theorem State.hostStores_clock (s : State) (bus : Bus) : (s.hostStores bus).clock = s.clock := rfl

@[simp] theorem State.hostStores_rack (s : State) (bus : Bus) : (s.hostStores bus).rack = s.rack := rfl

@[simp] theorem State.hostStores_store (s : State) (bus : Bus) : (s.hostStores bus).store = s.store := rfl

@[simp] theorem State.hostStores_telex (s : State) (bus : Bus) : (s.hostStores bus).telex = s.telex := rfl

@[simp] theorem State.hostStores_calendar (s : State) (bus : Bus) : (s.hostStores bus).calendar = s.calendar := rfl

@[simp] theorem State.hostStores_priority (s : State) (bus : Bus) : (s.hostStores bus).priority = s.priority := rfl

@[simp] theorem State.hostStores_chans (s : State) (bus : Bus) : (s.hostStores bus).chans = s.chans := rfl

@[simp] theorem State.hostStores_mem (s : State) (bus : Bus) :
    (s.hostStores bus).mem = Mem.store s.mem bus.writes := rfl

@[simp] theorem State.hostStores_fresh (s : State) (bus : Bus) : (s.hostStores bus).fresh = s.fresh := rfl

@[simp] theorem State.hostStores_pending (s : State) (bus : Bus) : (s.hostStores bus).pending = s.pending := rfl

@[simp] theorem State.hostStores_chan (s : State) (bus : Bus) (d : Chan) : (s.hostStores bus).chan d = s.chan d := rfl

/-! ## The answer of a docket taken -/

@[simp] theorem answerTaken_power (s : State) (slot : Nat) (result : Result) (progress : Progress) (walk : Bool) :
    (answerTaken slot result progress walk s).power = s.power := rfl

@[simp] theorem answerTaken_resetPin (s : State) (slot : Nat) (result : Result) (progress : Progress) (walk : Bool) :
    (answerTaken slot result progress walk s).resetPin = s.resetPin := rfl

@[simp] theorem answerTaken_clock (s : State) (slot : Nat) (result : Result) (progress : Progress) (walk : Bool) :
    (answerTaken slot result progress walk s).clock = s.clock := rfl

@[simp] theorem answerTaken_store (s : State) (slot : Nat) (result : Result) (progress : Progress) (walk : Bool) :
    (answerTaken slot result progress walk s).store = s.store := rfl

@[simp] theorem answerTaken_telex (s : State) (slot : Nat) (result : Result) (progress : Progress) (walk : Bool) :
    (answerTaken slot result progress walk s).telex = s.telex := rfl

@[simp] theorem answerTaken_calendar (s : State) (slot : Nat) (result : Result) (progress : Progress) (walk : Bool) :
    (answerTaken slot result progress walk s).calendar = s.calendar := rfl

@[simp] theorem answerTaken_priority (s : State) (slot : Nat) (result : Result) (progress : Progress) (walk : Bool) :
    (answerTaken slot result progress walk s).priority = s.priority := rfl

@[simp] theorem answerTaken_chans (s : State) (slot : Nat) (result : Result) (progress : Progress) (walk : Bool) :
    (answerTaken slot result progress walk s).chans = s.chans := rfl

@[simp] theorem answerTaken_mem (s : State) (slot : Nat) (result : Result) (progress : Progress) (walk : Bool) :
    (answerTaken slot result progress walk s).mem = s.mem := rfl

@[simp] theorem answerTaken_fresh (s : State) (slot : Nat) (result : Result) (progress : Progress) (walk : Bool) :
    (answerTaken slot result progress walk s).fresh = s.fresh := rfl

@[simp] theorem answerTaken_pending (s : State) (slot : Nat) (result : Result) (progress : Progress) (walk : Bool) :
    (answerTaken slot result progress walk s).pending = s.pending := rfl

@[simp] theorem answerTaken_chan (s : State) (slot : Nat) (result : Result) (progress : Progress) (walk : Bool) (d : Chan) :
    (answerTaken slot result progress walk s).chan d = s.chan d := rfl

/-! ## A marking walk requested -/

@[simp] theorem requestWalk_power (s : State) (c : Chan) (slot page limit : Nat) :
    (requestWalk c slot page limit s).power = s.power := rfl

@[simp] theorem requestWalk_resetPin (s : State) (c : Chan) (slot page limit : Nat) :
    (requestWalk c slot page limit s).resetPin = s.resetPin := rfl

@[simp] theorem requestWalk_clock (s : State) (c : Chan) (slot page limit : Nat) :
    (requestWalk c slot page limit s).clock = s.clock := rfl

@[simp] theorem requestWalk_rack (s : State) (c : Chan) (slot page limit : Nat) :
    (requestWalk c slot page limit s).rack = s.rack := rfl

@[simp] theorem requestWalk_store (s : State) (c : Chan) (slot page limit : Nat) :
    (requestWalk c slot page limit s).store = s.store := rfl

@[simp] theorem requestWalk_telex (s : State) (c : Chan) (slot page limit : Nat) :
    (requestWalk c slot page limit s).telex = s.telex := rfl

@[simp] theorem requestWalk_calendar (s : State) (c : Chan) (slot page limit : Nat) :
    (requestWalk c slot page limit s).calendar = s.calendar := rfl

@[simp] theorem requestWalk_priority (s : State) (c : Chan) (slot page limit : Nat) :
    (requestWalk c slot page limit s).priority = s.priority := rfl

@[simp] theorem requestWalk_mem (s : State) (c : Chan) (slot page limit : Nat) :
    (requestWalk c slot page limit s).mem = s.mem := rfl

@[simp] theorem requestWalk_fresh (s : State) (c : Chan) (slot page limit : Nat) :
    (requestWalk c slot page limit s).fresh = s.fresh := rfl

@[simp] theorem requestWalk_pending (s : State) (c : Chan) (slot page limit : Nat) :
    (requestWalk c slot page limit s).pending = s.pending := rfl

/-! ## A free choice used -/

@[simp] theorem State.useChoice_power (s : State) : (s.useChoice).power = s.power := rfl

@[simp] theorem State.useChoice_resetPin (s : State) : (s.useChoice).resetPin = s.resetPin := rfl

@[simp] theorem State.useChoice_clock (s : State) : (s.useChoice).clock = s.clock := rfl

@[simp] theorem State.useChoice_rack (s : State) : (s.useChoice).rack = s.rack := rfl

@[simp] theorem State.useChoice_store (s : State) : (s.useChoice).store = s.store := rfl

@[simp] theorem State.useChoice_telex (s : State) : (s.useChoice).telex = s.telex := rfl

@[simp] theorem State.useChoice_calendar (s : State) : (s.useChoice).calendar = s.calendar := rfl

@[simp] theorem State.useChoice_priority (s : State) : (s.useChoice).priority = s.priority := rfl

@[simp] theorem State.useChoice_chans (s : State) : (s.useChoice).chans = s.chans := rfl

@[simp] theorem State.useChoice_mem (s : State) : (s.useChoice).mem = s.mem := rfl

@[simp] theorem State.useChoice_fresh (s : State) : (s.useChoice).fresh = s.fresh + 1 := rfl

@[simp] theorem State.useChoice_pending (s : State) : (s.useChoice).pending = s.pending := rfl

@[simp] theorem State.useChoice_chan (s : State) (d : Chan) : (s.useChoice).chan d = s.chan d := rfl

/-! ## The front command taken -/

@[simp] theorem State.dequeue_power (s : State) : (s.dequeue).power = s.power := rfl

@[simp] theorem State.dequeue_resetPin (s : State) : (s.dequeue).resetPin = s.resetPin := rfl

@[simp] theorem State.dequeue_clock (s : State) : (s.dequeue).clock = s.clock := rfl

@[simp] theorem State.dequeue_rack (s : State) : (s.dequeue).rack = s.rack := rfl

@[simp] theorem State.dequeue_store (s : State) : (s.dequeue).store = s.store := rfl

@[simp] theorem State.dequeue_telex (s : State) : (s.dequeue).telex = s.telex := rfl

@[simp] theorem State.dequeue_calendar (s : State) : (s.dequeue).calendar = s.calendar := rfl

@[simp] theorem State.dequeue_priority (s : State) : (s.dequeue).priority = s.priority := rfl

@[simp] theorem State.dequeue_chans (s : State) : (s.dequeue).chans = s.chans := rfl

@[simp] theorem State.dequeue_mem (s : State) : (s.dequeue).mem = s.mem := rfl

@[simp] theorem State.dequeue_fresh (s : State) : (s.dequeue).fresh = s.fresh := rfl

@[simp] theorem State.dequeue_pending (s : State) : (s.dequeue).pending = s.pending.tail := rfl

@[simp] theorem State.dequeue_chan (s : State) (d : Chan) : (s.dequeue).chan d = s.chan d := rfl

/-! ## A command put at the front -/

@[simp] theorem State.enqueueFirst_power (s : State) (i : Instr) : (s.enqueueFirst i).power = s.power := rfl

@[simp] theorem State.enqueueFirst_resetPin (s : State) (i : Instr) : (s.enqueueFirst i).resetPin = s.resetPin := rfl

@[simp] theorem State.enqueueFirst_clock (s : State) (i : Instr) : (s.enqueueFirst i).clock = s.clock := rfl

@[simp] theorem State.enqueueFirst_rack (s : State) (i : Instr) : (s.enqueueFirst i).rack = s.rack := rfl

@[simp] theorem State.enqueueFirst_store (s : State) (i : Instr) : (s.enqueueFirst i).store = s.store := rfl

@[simp] theorem State.enqueueFirst_telex (s : State) (i : Instr) : (s.enqueueFirst i).telex = s.telex := rfl

@[simp] theorem State.enqueueFirst_calendar (s : State) (i : Instr) : (s.enqueueFirst i).calendar = s.calendar := rfl

@[simp] theorem State.enqueueFirst_priority (s : State) (i : Instr) : (s.enqueueFirst i).priority = s.priority := rfl

@[simp] theorem State.enqueueFirst_chans (s : State) (i : Instr) : (s.enqueueFirst i).chans = s.chans := rfl

@[simp] theorem State.enqueueFirst_mem (s : State) (i : Instr) : (s.enqueueFirst i).mem = s.mem := rfl

@[simp] theorem State.enqueueFirst_fresh (s : State) (i : Instr) : (s.enqueueFirst i).fresh = s.fresh := rfl

@[simp] theorem State.enqueueFirst_pending (s : State) (i : Instr) : (s.enqueueFirst i).pending = i :: s.pending := rfl

@[simp] theorem State.enqueueFirst_chan (s : State) (i : Instr) (d : Chan) : (s.enqueueFirst i).chan d = s.chan d := rfl

/-! ## The carrier goes down -/

@[simp] theorem Channel.silent_state (ch : Channel) : (ch.silent).state = ch.state := rfl

@[simp] theorem Channel.silent_onAir (ch : Channel) : (ch.silent).onAir = ch.onAir := rfl

@[simp] theorem Channel.silent_segment (ch : Channel) : (ch.silent).segment = ch.segment := rfl

@[simp] theorem Channel.silent_item (ch : Channel) : (ch.silent).item = ch.item := rfl

@[simp] theorem Channel.silent_follower (ch : Channel) : (ch.silent).follower = ch.follower := rfl

@[simp] theorem Channel.silent_pendingRetune (ch : Channel) : (ch.silent).pendingRetune = ch.pendingRetune := rfl

@[simp] theorem Channel.silent_pendingHold (ch : Channel) : (ch.silent).pendingHold = ch.pendingHold := rfl

@[simp] theorem Channel.silent_stopPending (ch : Channel) : (ch.silent).stopPending = ch.stopPending := rfl

@[simp] theorem Channel.silent_stopAtBoundary (ch : Channel) : (ch.silent).stopAtBoundary = ch.stopAtBoundary := rfl

@[simp] theorem Channel.silent_returnHeld (ch : Channel) : (ch.silent).returnHeld = ch.returnHeld := rfl

@[simp] theorem Channel.silent_absenceSeen (ch : Channel) : (ch.silent).absenceSeen = ch.absenceSeen := rfl

@[simp] theorem Channel.silent_readyCount (ch : Channel) : (ch.silent).readyCount = ch.readyCount := rfl

@[simp] theorem Channel.silent_readyView (ch : Channel) : (ch.silent).readyView = ch.readyView := rfl

@[simp] theorem Channel.silent_recoveryPending (ch : Channel) : (ch.silent).recoveryPending = ch.recoveryPending := rfl

@[simp] theorem Channel.silent_preset (ch : Channel) : (ch.silent).preset = ch.preset := rfl

@[simp] theorem Channel.silent_lead (ch : Channel) : (ch.silent).lead = none := rfl

@[simp] theorem Channel.silent_hang (ch : Channel) : (ch.silent).hang = none := rfl

@[simp] theorem Channel.silent_retuneLimit (ch : Channel) : (ch.silent).retuneLimit = ch.retuneLimit := rfl

@[simp] theorem Channel.silent_strobe (ch : Channel) : (ch.silent).strobe = ch.strobe := rfl

@[simp] theorem Channel.silent_period (ch : Channel) : (ch.silent).period = none := rfl

@[simp] theorem Channel.silent_retune (ch : Channel) : (ch.silent).retune = ch.retune := rfl

@[simp] theorem Channel.silent_offWaits (ch : Channel) : (ch.silent).offWaits = ch.offWaits := rfl

@[simp] theorem Channel.silent_tx (ch : Channel) : (ch.silent).tx = none := rfl

@[simp] theorem Channel.silent_rest (ch : Channel) : (ch.silent).rest = [] := rfl

@[simp] theorem Channel.silent_textPosition (ch : Channel) : (ch.silent).textPosition = ch.textPosition := rfl

@[simp] theorem Channel.silent_lineFinal (ch : Channel) : (ch.silent).lineFinal = ch.lineFinal := rfl

@[simp] theorem Channel.silent_waiting (ch : Channel) : (ch.silent).waiting = ch.waiting := rfl

@[simp] theorem Channel.silent_cutDecided (ch : Channel) : (ch.silent).cutDecided = ch.cutDecided := rfl

@[simp] theorem Channel.silent_decided (ch : Channel) : (ch.silent).decided = ch.decided := rfl

@[simp] theorem Channel.silent_fixed (ch : Channel) : (ch.silent).fixed = ch.fixed := rfl

@[simp] theorem Channel.silent_pick (ch : Channel) : (ch.silent).pick = .none := rfl

@[simp] theorem Channel.silent_codeDue (ch : Channel) : (ch.silent).codeDue = false := rfl

@[simp] theorem Channel.silent_call (ch : Channel) : (ch.silent).call = ch.call := rfl

@[simp] theorem Channel.silent_fetch (ch : Channel) : (ch.silent).fetch = ch.fetch := rfl

@[simp] theorem Channel.silent_line (ch : Channel) : (ch.silent).line = ch.line := rfl

/-! ## A state entered with the carrier down -/

@[simp] theorem Channel.enter_state (ch : Channel) (state : ChState) : (ch.enter state).state = state := rfl

@[simp] theorem Channel.enter_onAir (ch : Channel) (state : ChState) : (ch.enter state).onAir = ch.onAir := rfl

@[simp] theorem Channel.enter_segment (ch : Channel) (state : ChState) : (ch.enter state).segment = ch.segment := rfl

@[simp] theorem Channel.enter_item (ch : Channel) (state : ChState) : (ch.enter state).item = ch.item := rfl

@[simp] theorem Channel.enter_follower (ch : Channel) (state : ChState) : (ch.enter state).follower = ch.follower := rfl

@[simp] theorem Channel.enter_pendingRetune (ch : Channel) (state : ChState) :
    (ch.enter state).pendingRetune = ch.pendingRetune := rfl

@[simp] theorem Channel.enter_pendingHold (ch : Channel) (state : ChState) :
    (ch.enter state).pendingHold = ch.pendingHold := rfl

@[simp] theorem Channel.enter_stopPending (ch : Channel) (state : ChState) :
    (ch.enter state).stopPending = ch.stopPending := rfl

@[simp] theorem Channel.enter_stopAtBoundary (ch : Channel) (state : ChState) :
    (ch.enter state).stopAtBoundary = ch.stopAtBoundary := rfl

@[simp] theorem Channel.enter_returnHeld (ch : Channel) (state : ChState) :
    (ch.enter state).returnHeld = ch.returnHeld := rfl

@[simp] theorem Channel.enter_absenceSeen (ch : Channel) (state : ChState) :
    (ch.enter state).absenceSeen = ch.absenceSeen := rfl

@[simp] theorem Channel.enter_readyCount (ch : Channel) (state : ChState) :
    (ch.enter state).readyCount = ch.readyCount := rfl

@[simp] theorem Channel.enter_readyView (ch : Channel) (state : ChState) :
    (ch.enter state).readyView = ch.readyView := rfl

@[simp] theorem Channel.enter_recoveryPending (ch : Channel) (state : ChState) :
    (ch.enter state).recoveryPending = ch.recoveryPending := rfl

@[simp] theorem Channel.enter_preset (ch : Channel) (state : ChState) : (ch.enter state).preset = ch.preset := rfl

@[simp] theorem Channel.enter_lead (ch : Channel) (state : ChState) : (ch.enter state).lead = none := rfl

@[simp] theorem Channel.enter_hang (ch : Channel) (state : ChState) : (ch.enter state).hang = none := rfl

@[simp] theorem Channel.enter_retuneLimit (ch : Channel) (state : ChState) :
    (ch.enter state).retuneLimit = ch.retuneLimit := rfl

@[simp] theorem Channel.enter_strobe (ch : Channel) (state : ChState) : (ch.enter state).strobe = ch.strobe := rfl

@[simp] theorem Channel.enter_period (ch : Channel) (state : ChState) : (ch.enter state).period = none := rfl

@[simp] theorem Channel.enter_retune (ch : Channel) (state : ChState) : (ch.enter state).retune = ch.retune := rfl

@[simp] theorem Channel.enter_offWaits (ch : Channel) (state : ChState) : (ch.enter state).offWaits = ch.offWaits := rfl

@[simp] theorem Channel.enter_tx (ch : Channel) (state : ChState) : (ch.enter state).tx = none := rfl

@[simp] theorem Channel.enter_rest (ch : Channel) (state : ChState) : (ch.enter state).rest = [] := rfl

@[simp] theorem Channel.enter_textPosition (ch : Channel) (state : ChState) :
    (ch.enter state).textPosition = ch.textPosition := rfl

@[simp] theorem Channel.enter_lineFinal (ch : Channel) (state : ChState) :
    (ch.enter state).lineFinal = ch.lineFinal := rfl

@[simp] theorem Channel.enter_waiting (ch : Channel) (state : ChState) : (ch.enter state).waiting = ch.waiting := rfl

@[simp] theorem Channel.enter_cutDecided (ch : Channel) (state : ChState) :
    (ch.enter state).cutDecided = ch.cutDecided := rfl

@[simp] theorem Channel.enter_decided (ch : Channel) (state : ChState) : (ch.enter state).decided = ch.decided := rfl

@[simp] theorem Channel.enter_fixed (ch : Channel) (state : ChState) : (ch.enter state).fixed = ch.fixed := rfl

@[simp] theorem Channel.enter_pick (ch : Channel) (state : ChState) : (ch.enter state).pick = .none := rfl

@[simp] theorem Channel.enter_codeDue (ch : Channel) (state : ChState) : (ch.enter state).codeDue = false := rfl

@[simp] theorem Channel.enter_call (ch : Channel) (state : ChState) : (ch.enter state).call = ch.call := rfl

@[simp] theorem Channel.enter_fetch (ch : Channel) (state : ChState) : (ch.enter state).fetch = ch.fetch := rfl

@[simp] theorem Channel.enter_line (ch : Channel) (state : ChState) : (ch.enter state).line = ch.line := rfl

/-! ## The item leaves the channel -/

@[simp] theorem Channel.clearItem_state (ch : Channel) : (ch.clearItem).state = ch.state := rfl

@[simp] theorem Channel.clearItem_onAir (ch : Channel) : (ch.clearItem).onAir = none := rfl

@[simp] theorem Channel.clearItem_segment (ch : Channel) : (ch.clearItem).segment = none := rfl

@[simp] theorem Channel.clearItem_item (ch : Channel) : (ch.clearItem).item = ch.item := rfl

@[simp] theorem Channel.clearItem_follower (ch : Channel) : (ch.clearItem).follower = ch.follower := rfl

@[simp] theorem Channel.clearItem_pendingRetune (ch : Channel) : (ch.clearItem).pendingRetune = ch.pendingRetune := rfl

@[simp] theorem Channel.clearItem_pendingHold (ch : Channel) : (ch.clearItem).pendingHold = ch.pendingHold := rfl

@[simp] theorem Channel.clearItem_stopPending (ch : Channel) : (ch.clearItem).stopPending = ch.stopPending := rfl

@[simp] theorem Channel.clearItem_stopAtBoundary (ch : Channel) :
    (ch.clearItem).stopAtBoundary = ch.stopAtBoundary := rfl

@[simp] theorem Channel.clearItem_returnHeld (ch : Channel) : (ch.clearItem).returnHeld = ch.returnHeld := rfl

@[simp] theorem Channel.clearItem_absenceSeen (ch : Channel) : (ch.clearItem).absenceSeen = ch.absenceSeen := rfl

@[simp] theorem Channel.clearItem_readyCount (ch : Channel) : (ch.clearItem).readyCount = ch.readyCount := rfl

@[simp] theorem Channel.clearItem_readyView (ch : Channel) : (ch.clearItem).readyView = ch.readyView := rfl

@[simp] theorem Channel.clearItem_recoveryPending (ch : Channel) :
    (ch.clearItem).recoveryPending = ch.recoveryPending := rfl

@[simp] theorem Channel.clearItem_preset (ch : Channel) : (ch.clearItem).preset = ch.preset := rfl

@[simp] theorem Channel.clearItem_lead (ch : Channel) : (ch.clearItem).lead = none := rfl

@[simp] theorem Channel.clearItem_hang (ch : Channel) : (ch.clearItem).hang = ch.hang := rfl

@[simp] theorem Channel.clearItem_retuneLimit (ch : Channel) : (ch.clearItem).retuneLimit = ch.retuneLimit := rfl

@[simp] theorem Channel.clearItem_strobe (ch : Channel) : (ch.clearItem).strobe = ch.strobe := rfl

@[simp] theorem Channel.clearItem_period (ch : Channel) : (ch.clearItem).period = ch.period := rfl

@[simp] theorem Channel.clearItem_retune (ch : Channel) : (ch.clearItem).retune = ch.retune := rfl

@[simp] theorem Channel.clearItem_offWaits (ch : Channel) : (ch.clearItem).offWaits = ch.offWaits := rfl

@[simp] theorem Channel.clearItem_tx (ch : Channel) : (ch.clearItem).tx = ch.tx := rfl

@[simp] theorem Channel.clearItem_rest (ch : Channel) : (ch.clearItem).rest = [] := rfl

@[simp] theorem Channel.clearItem_textPosition (ch : Channel) : (ch.clearItem).textPosition = 0 := rfl

@[simp] theorem Channel.clearItem_lineFinal (ch : Channel) : (ch.clearItem).lineFinal = false := rfl

@[simp] theorem Channel.clearItem_waiting (ch : Channel) : (ch.clearItem).waiting = false := rfl

@[simp] theorem Channel.clearItem_cutDecided (ch : Channel) : (ch.clearItem).cutDecided = false := rfl

@[simp] theorem Channel.clearItem_decided (ch : Channel) : (ch.clearItem).decided = none := rfl

@[simp] theorem Channel.clearItem_fixed (ch : Channel) : (ch.clearItem).fixed = none := rfl

@[simp] theorem Channel.clearItem_pick (ch : Channel) : (ch.clearItem).pick = ch.pick := rfl

@[simp] theorem Channel.clearItem_codeDue (ch : Channel) : (ch.clearItem).codeDue = ch.codeDue := rfl

@[simp] theorem Channel.clearItem_call (ch : Channel) : (ch.clearItem).call = ch.call.leave := rfl

@[simp] theorem Channel.clearItem_fetch (ch : Channel) :
    (ch.clearItem).fetch = { ch.fetch.discard with body := none } := rfl

@[simp] theorem Channel.clearItem_line (ch : Channel) : (ch.clearItem).line = ch.line := rfl

/-! ## CallUnit.standBy and CallUnit.leave (R88 to R91, R95) -/

@[simp] theorem CallUnit.standBy_condition (u : CallUnit) : u.standBy.condition = .standby := rfl

@[simp] theorem CallUnit.standBy_mode (u : CallUnit) : u.standBy.mode = none := rfl

@[simp] theorem CallUnit.standBy_resumed (u : CallUnit) : u.standBy.resumed = none := rfl

@[simp] theorem CallUnit.standBy_window (u : CallUnit) : u.standBy.window = [] := rfl

@[simp] theorem CallUnit.standBy_attempts (u : CallUnit) : u.standBy.attempts = u.attempts := rfl

@[simp] theorem CallUnit.standBy_timer (u : CallUnit) : u.standBy.timer = none := rfl

/-- A Call Unit whose item leaves is in STANDBY, and its counter is dropped in an opening call and kept otherwise. -/
theorem CallUnit.leave_eq (u : CallUnit) :
    u.leave = { CallUnit.reset with attempts := if u.mode = some .opening then 0 else u.attempts } := by
  unfold CallUnit.leave
  split <;> rfl

@[simp] theorem CallUnit.leave_condition (u : CallUnit) : u.leave.condition = .standby := by rw [CallUnit.leave_eq]; rfl

@[simp] theorem CallUnit.leave_window (u : CallUnit) : u.leave.window = [] := by rw [CallUnit.leave_eq]; rfl

@[simp] theorem CallUnit.leave_timer (u : CallUnit) : u.leave.timer = none := by rw [CallUnit.leave_eq]; rfl

end Sys2Proof.Machine
end

