-- ==== Sys2Proof/Laws/Kept.lean ====
section
/-! SUPPORT. What the channels, the calendar, the Priority List and the Telex Queue can do between them: `Kept s t` says
all that is left of `s` in `t` after any of their operations, and there is one lemma for each operation. -/

namespace Sys2Proof.Machine

set_option Elab.async false

/-- From `s` to `t` the owners of items and the channels have acted, and nothing else: the registers, the clock, the
store and the queue of commands are as they were; flags have only been raised and answers only appended; items and
entries have only left; host memory has changed only in state bytes of pages, which read SENT; and no fault count has
passed 3. -/
structure Kept (s t : State) : Prop where
  power : t.power = s.power
  resetPin : t.resetPin = s.resetPin
  clock : t.clock = s.clock
  store : t.store = s.store
  fresh : t.fresh = s.fresh
  pending : t.pending = s.pending
  rack : t.rack = { s.rack with events := t.rack.events, backlog := t.rack.backlog }
  events : ∀ i, s.rack.events.getLsbD i = true → t.rack.events.getLsbD i = true
  backlog : s.rack.backlog <+: t.rack.backlog
  telex : (t.telex.map (fun i => (i.slot, i.channel))).Sublist (s.telex.map (fun i => (i.slot, i.channel)))
  calendar : (t.calendar.map CalEntry.slot).Sublist (s.calendar.map CalEntry.slot)
  priority : (t.priority.map PrioEntry.slot).Sublist (s.priority.map PrioEntry.slot)
  faults : ∀ c, (s.chan c).line.faults ≤ 3 → (t.chan c).line.faults ≤ 3
  mem : Mem.wf s.mem = true → Mem.wf t.mem = true
    ∧ ∀ a, Mem.read t.mem a = Mem.read s.mem a ∨ (s.pageStateAddress a ∧ Mem.read t.mem a = 2)

theorem Kept.refl (s : State) : Kept s s :=
  { power := rfl, resetPin := rfl, clock := rfl, store := rfl, fresh := rfl, pending := rfl, rack := rfl
    events := fun _ h => h, backlog := List.prefix_refl _, telex := List.Sublist.refl _
    calendar := List.Sublist.refl _, priority := List.Sublist.refl _, faults := fun _ h => h
    mem := fun h => ⟨h, fun _ => .inl rfl⟩ }

theorem Kept.pageBase {s t : State} (h : Kept s t) : t.rack.pageBase = s.rack.pageBase := by rw [h.rack]

theorem Kept.trans {s t u : State} (h : Kept s t) (k : Kept t u) : Kept s u where
  power := k.power.trans h.power
  resetPin := k.resetPin.trans h.resetPin
  clock := k.clock.trans h.clock
  store := k.store.trans h.store
  fresh := k.fresh.trans h.fresh
  pending := k.pending.trans h.pending
  rack := by rw [k.rack, h.rack]
  events := fun i x => k.events i (h.events i x)
  backlog := h.backlog.trans k.backlog
  telex := k.telex.trans h.telex
  calendar := k.calendar.trans h.calendar
  priority := k.priority.trans h.priority
  faults := fun c x => k.faults c (h.faults c x)
  mem := fun w => by
    refine ⟨(k.mem (h.mem w).1).1, fun a => ?_⟩
    rcases (k.mem (h.mem w).1).2 a with e | ⟨⟨n, e⟩, v⟩
    · rcases (h.mem w).2 a with e' | ⟨p, v⟩
      · exact .inl (e.trans e')
      · exact .inr ⟨p, e.trans v⟩
    · exact .inr ⟨⟨n, by rw [e, h.pageBase]⟩, v⟩

variable {s t u : State}

/-- Whichever branch is taken. -/
theorem Kept.ite {p : Prop} [Decidable p] (h : Kept s t) (k : Kept s u) : Kept s (if p then t else u) := by
  split
  · exact h
  · exact k

/-! ## The plain updates -/

theorem Kept.setChan {c : Chan} {f : Channel → Channel} (h : Kept s t)
    (hf : ∀ ch, ch.line.faults ≤ 3 → (f ch).line.faults ≤ 3 := by intro ch x; exact x) : Kept s (t.setChan c f) :=
  h.trans
    { Kept.refl t with
      faults := fun d x => by
        rw [State.chan_setChan]
        split
        · rename_i e; subst e; exact hf _ x
        · exact x }

theorem map_keeps {α β : Type} (g : α → β) (f : α → α) (l : List α) (hf : ∀ x, g (f x) = g x) :
    (l.map f).map g = l.map g := by
  rw [List.map_map]
  exact List.map_congr_left (fun x _ => hf x)

theorem sublist_of_keeps {α β : Type} (g : α → β) (f : α → α) (l : List α) (hf : ∀ x, g (f x) = g x) :
    ((l.map f).map g).Sublist (l.map g) :=
  Eq.mpr (congrArg (fun x => List.Sublist x (l.map g)) (map_keeps g f l hf)) (List.Sublist.refl _)

theorem Kept.setTelex {slot : Nat} {f : TelexItem → TelexItem} (h : Kept s t)
    (hf : ∀ i, (f i).slot = i.slot ∧ (f i).channel = i.channel := by intro i; exact ⟨rfl, rfl⟩) :
    Kept s (t.setTelex slot f) :=
  h.trans
    { Kept.refl t with
      telex := by
        have keeps : ∀ i : TelexItem, ((if i.slot = slot then f i else i).slot, (if i.slot = slot then f i else i).channel)
            = (i.slot, i.channel) := by
          intro i
          split
          · rw [(hf i).1, (hf i).2]
          · rfl
        exact sublist_of_keeps _ _ _ keeps }

theorem Kept.setEntry {slot : Nat} {f : CalEntry → CalEntry} (h : Kept s t)
    (hf : ∀ e, (f e).slot = e.slot := by intro e; rfl) : Kept s (t.setEntry slot f) :=
  h.trans
    { Kept.refl t with
      calendar := by
        have keeps : ∀ e : CalEntry, (if e.slot = slot then f e else e).slot = e.slot := by
          intro e
          split
          · exact hf e
          · rfl
        exact sublist_of_keeps _ _ _ keeps }

theorem Kept.setPrio {slot : Nat} {f : PrioEntry → PrioEntry} (h : Kept s t)
    (hf : ∀ e, (f e).slot = e.slot := by intro e; rfl) : Kept s (t.setPrio slot f) :=
  h.trans
    { Kept.refl t with
      priority := by
        have keeps : ∀ e : PrioEntry, (if e.slot = slot then f e else e).slot = e.slot := by
          intro e
          split
          · exact hf e
          · rfl
        exact sublist_of_keeps _ _ _ keeps }

theorem Kept.dropTelex {p : TelexItem → Bool} (h : Kept s t) : Kept s { t with telex := t.telex.filter p } :=
  h.trans { Kept.refl t with telex := List.Sublist.map _ List.filter_sublist }

theorem Kept.dropEntry {p : CalEntry → Bool} (h : Kept s t) : Kept s { t with calendar := t.calendar.filter p } :=
  h.trans { Kept.refl t with calendar := List.Sublist.map _ List.filter_sublist }

theorem Kept.dropPrio {p : PrioEntry → Bool} (h : Kept s t) : Kept s { t with priority := t.priority.filter p } :=
  h.trans { Kept.refl t with priority := List.Sublist.map _ List.filter_sublist }

theorem Kept.raise {f : Flag} (h : Kept s t) : Kept s (t.raise f) :=
  h.trans
    { Kept.refl t with
      rack := rfl
      events := fun i x => by simp [BitVec.getLsbD_or, x] }

theorem Kept.raiseIf {b : Bool} {f : Flag} (h : Kept s t) : Kept s (t.raiseIf b f) := by
  unfold State.raiseIf
  split
  · exact h.raise
  · exact h

theorem Kept.pushAnswer {slot : Nat} {result : Result} {reason : Option Reason} {progress : Progress}
    {expected : Expected} {seq : Option Nat} {walk : Bool} (h : Kept s t) :
    Kept s (pushAnswer slot result reason progress expected seq walk t) :=
  h.trans { Kept.refl t with rack := rfl, backlog := List.prefix_append .. }

theorem Kept.answerTaken {slot : Nat} {result : Result} {progress : Progress} {walk : Bool} (h : Kept s t) :
    Kept s (answerTaken slot result progress walk t) := h.pushAnswer

theorem Kept.answerHeld {slot : Option Nat} {result : Result} (h : Kept s t) : Kept s (answerHeld slot result t) := by
  unfold Machine.answerHeld
  split
  · exact h.answerTaken
  · exact h

theorem Kept.requestWalk {c : Chan} {slot page limit : Nat} (h : Kept s t) :
    Kept s (requestWalk c slot page limit t) := h.setChan

theorem Kept.markSent {n : Nat} (h : Kept s t) : Kept s (t.markSent n) :=
  h.trans
    { Kept.refl t with
      mem := fun w => by
        refine ⟨State.markSent_wf w, fun a => ?_⟩
        show Mem.read (Mem.write t.mem (busAddress t.rack.pageBase (pageOffset n)) 2) a = _ ∨ _
        by_cases e : busAddress t.rack.pageBase (pageOffset n) = a
        · subst e
          exact .inr ⟨⟨n, rfl⟩, Mem.read_write_same w⟩
        · exact .inl (Mem.read_write_other w e) }

/-! ## Repetition -/

theorem Kept.foldl {α : Type} {f : State → α → State} {l : List α} (h : Kept s t)
    (hf : ∀ u a, Kept s u → Kept s (f u a)) : Kept s (l.foldl f t) := by
  induction l generalizing t with
  | nil => exact h
  | cons a l ih => exact ih (hf t a h)

theorem Kept.eachChan {f : Chan → State → State} {cs : List Chan} (h : Kept s t)
    (hf : ∀ c u, Kept s u → Kept s (f c u)) : Kept s (eachChan f cs t) := h.foldl (fun u c k => hf c u k)

/-! ## Triggers and marks -/

theorem Kept.trigger {c : Chan} (h : Kept s t) : Kept s (trigger c t) := by
  unfold Machine.trigger
  split
  · exact h.setChan
  · exact h.setChan
  · exact h

theorem Kept.compareWait {c : Chan} (h : Kept s t) : Kept s (compareWait c t) := by
  unfold Machine.compareWait
  split
  · exact h.setChan
  · exact h

theorem Kept.dropMark {slot : Nat} {c : Chan} (h : Kept s t) : Kept s (dropMark slot c t) :=
  h.setChan (fun ch x => by split <;> exact x)

/-! ## The calendar -/

theorem Kept.endEntry {slot : Nat} {result : Result} (h : Kept s t) : Kept s (endEntry slot result t) := by
  unfold Machine.endEntry
  split
  · exact h
  · exact h.answerTaken.requestWalk.dropEntry.eachChan (fun _ _ k => k.dropMark.trigger)

theorem Kept.endByTallies {slots : List Nat} (h : Kept s t) : Kept s (endByTallies slots t) :=
  h.foldl (fun u _ k => by
    split
    · exact k.endEntry
    · exact k)

theorem Kept.endWithdrawn {slots : List Nat} (h : Kept s t) : Kept s (endWithdrawn slots t) :=
  h.foldl (fun _ _ k => k.setEntry.endEntry)

@[simp] theorem CalEntry.repeat_miss_slot (n : Nat) (e : CalEntry) : (repeatFn CalEntry.miss n e).slot = e.slot := by
  induction n generalizing e with
  | zero => rfl
  | succ n ih => exact ih _

theorem CalEntry.placeAt_slot (e : CalEntry) (x : Int) : (e.placeAt x).slot = e.slot := by
  unfold CalEntry.placeAt
  split <;> rfl

theorem Kept.place {slot : Nat} {elapsed : Int} (h : Kept s t) : Kept s (place slot elapsed t) := by
  unfold Machine.place
  split
  · exact h
  · rename_i e _
    have missed : ∀ n b, Kept s ((e.pair.foldl (fun s k => s.setEntry k (CalEntry.overMissed n)) t).raiseIf b .missed) :=
      fun n b => (h.foldl (fun _ _ k => k.setEntry (f := CalEntry.overMissed n)
        (fun x => CalEntry.repeat_miss_slot n x))).raiseIf
    dsimp only
    split
    · exact (missed _ _).endByTallies
    · split
      · exact (missed _ _).setEntry (fun x => x.placeAt_slot _)
      · exact ((missed _ _).setEntry (fun x => x.placeAt_slot _)).eachChan (fun _ _ k => k.trigger)

theorem Kept.compareIfWaits {slot : Nat} (h : Kept s t) : Kept s (compareIfWaits slot t) := by
  unfold Machine.compareIfWaits
  split
  · exact h
  · exact Kept.ite (h.eachChan (fun _ _ k => k.compareWait)) h

theorem Kept.settle {e : CalEntry} (h : Kept s t) : Kept s (settle e t) := by
  have unmarked : Kept s (Machine.eachChan (Machine.dropMark e.slot) (maskChans e.mask)
      (e.pair.foldl (fun s k => s.setEntry k CalEntry.record) t)) :=
    (h.foldl (fun _ _ k => k.setEntry)).eachChan (fun _ _ k => k.dropMark)
  unfold Machine.settle
  dsimp only
  split
  · exact unmarked.endByTallies
  · exact (unmarked.foldl (fun _ _ k => k.setEntry)).place.compareIfWaits

theorem Kept.afterOutcome {slot : Nat} (h : Kept s t) : Kept s (afterOutcome slot t) := by
  unfold Machine.afterOutcome
  split
  · exact h
  · split
    · split
      · exact h
      · exact h.endWithdrawn
    · split
      · exact h.settle
      · exact h

theorem Kept.setOutcome {slot : Nat} {c : Chan} {o : ChanOutcome} (h : Kept s t) : Kept s (setOutcome slot c o t) :=
  h.setEntry

theorem Kept.bulletinStarted {slot : Nat} {c : Chan} (h : Kept s t) : Kept s (bulletinStarted slot c t) := h.setOutcome

theorem Kept.bulletinSent {slot : Nat} {c : Chan} (h : Kept s t) : Kept s (bulletinSent slot c t) := by
  unfold Machine.bulletinSent
  split
  · exact h
  · dsimp only
    split
    · exact h.setOutcome.setChan.afterOutcome
    · exact h.setOutcome.afterOutcome

theorem failOutcome_slot (c : Chan) (e : CalEntry) : (failOutcome c e).slot = e.slot := by
  unfold failOutcome
  split <;> rfl

/-- On a channel of its mask an entry's outcome fails whatever it was, NOT_USED by a withdrawal too (R115, R118). -/
theorem failOutcome_inMask {c : Chan} {e : CalEntry} (h : inMask e.mask c = true) :
    failOutcome c e = { e with out := e.out.set c .failed } := by
  simp [failOutcome, h]

theorem Kept.bulletinFailed {slot : Nat} {c : Chan} (h : Kept s t) : Kept s (bulletinFailed slot c t) := by
  unfold Machine.bulletinFailed
  split
  · exact h
  · rename_i e _
    have failed : Kept s (e.pair.foldl (fun s k => s.setEntry k (failOutcome c)) t) :=
      h.foldl (fun _ _ k => k.setEntry (failOutcome_slot c))
    dsimp only
    split
    · exact failed.afterOutcome
    · exact failed.trigger.afterOutcome

theorem Kept.clearMark {c : Chan} (h : Kept s t) : Kept s (clearMark c t) := by
  unfold Machine.clearMark
  split
  · exact h
  · have cleared : Kept s (t.setChan c (fun ch => { ch with follower := none })) := h.setChan
    dsimp only
    split
    · exact cleared
    · split
      · exact cleared
      · exact cleared.bulletinFailed

theorem Kept.limitPasses {e : CalEntry} (h : Kept s t) : Kept s (limitPasses e t) := by
  unfold Machine.limitPasses
  dsimp only
  split
  · exact h.setEntry.setEntry.raiseIf.afterOutcome
  · exact h.setEntry.raiseIf.afterOutcome

theorem Kept.becomeDue {e : CalEntry} (h : Kept s t) : Kept s (becomeDue e t) :=
  h.setEntry.eachChan (fun _ _ k => k.trigger)

theorem Kept.forwardJump {old new jump : Nat} (h : Kept s t) : Kept s (forwardJump old new jump t) :=
  h.foldl (fun _ _ k => by
    split
    · exact k.setEntry.place
    · exact k)

theorem Kept.backwardJump {old new : Nat} (h : Kept s t) : Kept s (backwardJump old new t) :=
  h.foldl (fun _ _ k => by
    split
    · exact k.becomeDue
    · exact k)

theorem Kept.endUnlessOnAir {slots : List Nat} (h : Kept s t) : Kept s (endUnlessOnAir slots t) := by
  unfold Machine.endUnlessOnAir
  split
  · exact h
  · exact h.endWithdrawn

theorem Kept.withdrawEntry {e : CalEntry} (h : Kept s t) : Kept s (withdrawEntry e t) := by
  have marked : Kept s (Machine.eachChan (Machine.dropMark e.lead) Chan.all
      (e.pair.foldl (fun s k => s.setEntry k CalEntry.withdraw) t)) :=
    (h.foldl (fun _ _ k => k.setEntry)).eachChan (fun _ _ k => k.dropMark)
  unfold Machine.withdrawEntry
  dsimp only
  split
  · exact (marked.eachChan (fun _ _ k => k.trigger)).endUnlessOnAir.eachChan (fun _ _ k => k.compareWait)
  · exact marked.endUnlessOnAir

theorem CalEntry.lose_slot (offs : List Chan) (e : CalEntry) : (CalEntry.lose offs e).slot = e.slot := by
  unfold CalEntry.lose
  induction offs generalizing e with
  | nil => rfl
  | cons c offs ih => exact ih _

theorem Kept.entryLoses {offs : List Chan} {e : CalEntry} (h : Kept s t) : Kept s (entryLoses offs e t) := by
  have lost : Kept s (e.pair.foldl (fun s k => s.setEntry k (CalEntry.lose offs)) t) :=
    h.foldl (fun _ _ k => k.setEntry (CalEntry.lose_slot offs))
  unfold Machine.entryLoses
  split
  · exact h
  · dsimp only
    split
    · exact lost.foldl (fun _ _ k => k.endEntry)
    · exact lost.afterOutcome

theorem Kept.calendarLoses {offs : List Chan} (h : Kept s t) : Kept s (calendarLoses offs t) :=
  h.foldl (fun _ _ k => by
    split
    · exact k.entryLoses
    · exact k)

/-! ## The Priority List -/

theorem Kept.endPriority {slot : Nat} {result : Result} (h : Kept s t) : Kept s (endPriority slot result t) := by
  unfold Machine.endPriority
  split
  · exact h
  · exact h.answerTaken.requestWalk.dropPrio

theorem Kept.afterPriority {slot : Nat} (h : Kept s t) : Kept s (afterPriority slot t) := by
  unfold Machine.afterPriority
  split
  · exact h
  · split
    · split
      · exact h
      · exact h.endPriority
    · split
      · exact h.endPriority
      · exact h

theorem Kept.setPriority {slot : Nat} {c : Chan} {o : ChanOutcome} (h : Kept s t) : Kept s (setPriority slot c o t) :=
  h.setPrio

theorem Kept.priorityStarted {slot : Nat} {c : Chan} (h : Kept s t) : Kept s (priorityStarted slot c t) := h.setPriority

theorem Kept.priorityReport {slot : Nat} {c : Chan} {o : ChanOutcome} (h : Kept s t) :
    Kept s (priorityReport slot c o t) := by
  unfold Machine.priorityReport
  split
  · exact h
  · dsimp only
    split
    · exact h.setPriority.trigger.afterPriority
    · exact h.setPriority.afterPriority

theorem Kept.failRelays {c : Chan} (h : Kept s t) : Kept s (failRelays c t) := h.foldl (fun _ _ k => k.priorityReport)

theorem Kept.urgentPasses {e : PrioEntry} (h : Kept s t) : Kept s (urgentPasses e t) :=
  h.setPrio.raiseIf.afterPriority

theorem Kept.withdrawUrgent {slot : Nat} (h : Kept s t) : Kept s (withdrawUrgent slot t) := h.setPrio.afterPriority

theorem Kept.priorityLoses {offs : List Chan} (h : Kept s t) : Kept s (priorityLoses offs t) :=
  h.foldl (fun _ _ k => k.setPrio.afterPriority)

/-! ## The Telex Queue -/

theorem Kept.endTelex {slot : Nat} {result : Result} (h : Kept s t) : Kept s (endTelex slot result t) := by
  unfold Machine.endTelex
  split
  · exact h
  · rename_i i _
    have left : Kept s ({ Machine.requestWalk i.channel slot (walkStart i (t.chan i.channel).fetch) 255
        (Machine.answerTaken slot result i.progress true t) with
          telex := (Machine.requestWalk i.channel slot (walkStart i (t.chan i.channel).fetch) 255
            (Machine.answerTaken slot result i.progress true t)).telex.filter (fun x => x.slot != slot) }) :=
      h.answerTaken.requestWalk.dropTelex
    exact Kept.ite left.setChan.trigger left.setChan

theorem Kept.handBack {slot : Nat} (h : Kept s t) : Kept s (handBack slot t) := h.setTelex

theorem Kept.closeQueue {c : Chan} (h : Kept s t) : Kept s (closeQueue c t) :=
  (h.foldl (fun _ _ k => k.endTelex)).setChan

end Sys2Proof.Machine
end

