-- ==== Sys2Proof/Laws/KeptChannel.lean ====
section
/-! SUPPORT. What each operation of a channel leaves of the rest of the part: the lemmas of `Kept` for the channel states,
what goes on the air, the pick, the character boundary, the answerback, the page reads and the lines. -/

namespace Sys2Proof.Machine

set_option Elab.async false

variable {s t : State}

/-! ## The channel states -/

theorem Kept.enterRetuning {c : Chan} {slot : Option Nat} {preset : Nat} {held : Bool} (h : Kept s t) :
    Kept s (enterRetuning c slot preset held t) := h.setChan.clearMark

theorem Kept.retuneWhenHeld {c : Chan} (h : Kept s t) : Kept s (retuneWhenHeld c t) := by
  unfold Machine.retuneWhenHeld
  split
  · exact h.enterRetuning
  · exact h

theorem Kept.enterHeld {c : Chan} (h : Kept s t) : Kept s (enterHeld c t) :=
  (Kept.failRelays (Kept.setChan h.setChan.clearMark.answerHeld)).retuneWhenHeld

theorem Kept.enterIdle {c : Chan} (h : Kept s t) : Kept s (enterIdle c t) :=
  h.setChan (fun ch x => by
    dsimp only
    split <;> exact x)

theorem Kept.enterOff {c : Chan} (h : Kept s t) : Kept s (enterOff c t) := h.setChan.clearMark

theorem Kept.becomeFree {c : Chan} (h : Kept s t) : Kept s (becomeFree c t) := h.setChan

theorem Kept.endOnAir {c : Chan} {result : Result} (h : Kept s t) : Kept s (endOnAir c result t) := by
  unfold Machine.endOnAir
  split
  · exact h.endTelex.becomeFree
  · exact h

theorem Kept.handBackFree {c : Chan} (h : Kept s t) : Kept s (handBackFree c t) := by
  unfold Machine.handBackFree
  split
  · exact h.handBack.becomeFree
  · exact h

theorem Kept.becomeFreeUncut {c : Chan} (h : Kept s t) : Kept s (becomeFreeUncut c t) := h.setChan

theorem Kept.handBackUncut {c : Chan} (h : Kept s t) : Kept s (handBackUncut c t) := by
  unfold Machine.handBackUncut
  split
  · exact h.handBack.becomeFreeUncut
  · exact h

theorem Kept.reportBody {c : Chan} {a : OnAir} {o : ChanOutcome} (h : Kept s t) : Kept s (reportBody c a o t) := by
  unfold Machine.reportBody
  split
  · exact Kept.ite h.bulletinSent h.bulletinFailed
  · exact h.priorityReport
  · exact h.priorityReport
  · exact h

theorem Kept.cutTelex {item : TelexItem} {ch : Channel} (h : Kept s t) : Kept s (cutTelex item ch t) := by
  unfold Machine.cutTelex
  dsimp only
  split
  · exact h.setTelex.endTelex
  · exact Kept.ite h.setTelex.endTelex h.setTelex.handBack

theorem Kept.abruptCut {c : Chan} {gone : ChanOutcome} (h : Kept s t) : Kept s (abruptCut c gone t) := by
  unfold Machine.abruptCut
  dsimp only
  split
  · exact h
  · split
    · split
      · exact h.cutTelex.setChan
      · exact h.setChan
    · exact h.bulletinFailed.setChan
    · exact h.priorityReport.setChan
    · exact h.priorityReport.setChan

theorem Kept.stopCuts {c : Chan} (h : Kept s t) : Kept s (stopCuts c t) := h.abruptCut.enterHeld

theorem Kept.offBoundary {c : Chan} (h : Kept s t) : Kept s (offBoundary c t) :=
  Kept.ite h.abruptCut.setChan.clearMark (Kept.ite h.abruptCut.setChan.enterIdle h.abruptCut.enterOff)

theorem Kept.hangExpires {c : Chan} (h : Kept s t) : Kept s (hangExpires c t) :=
  Kept.ite h.offBoundary (Kept.ite h.enterHeld h.enterIdle.clearMark)

/-! ## Pages -/

theorem Kept.markPage {bus : Bus} {c : Chan} {p : ChainPage} (h : Kept s t) : Kept s (markPage bus c t p) :=
  Kept.ite h.raise.setChan h.markSent

theorem Kept.markPassed {bus : Bus} {c : Chan} {offset : Nat} (h : Kept s t) : Kept s (markPassed bus c offset t) := by
  unfold Machine.markPassed
  exact Kept.setChan (h.foldl (f := Machine.markPage bus c) (fun _ _ k => k.markPage))

theorem Kept.markingWalk {bus : Bus} {n page : Nat} (h : Kept s t) : Kept s (markingWalk bus n page t) := by
  induction n generalizing t page with
  | zero => exact h
  | succ n ih => exact Kept.ite h (Kept.ite h.raise (Kept.ite h (Kept.ite h.raise (Kept.ite (ih h.markSent) h.markSent))))

/-! ## What goes on the air -/

theorem Channel.setReading_line (img : Image) (rd : Reading) (ch : Channel) : (ch.setReading img rd).line = ch.line := rfl

theorem Channel.setLookahead_line (img : Image) (rd : Reading) (ch : Channel) :
    (ch.setLookahead img rd).line = ch.line := rfl

theorem Kept.beginClosing {c : Chan} (h : Kept s t) : Kept s (beginClosing c t) := h.setChan

theorem Kept.signoffEnd {c : Chan} (h : Kept s t) : Kept s (signoffEnd c t) := by
  unfold Machine.signoffEnd
  split
  · exact h
  · refine Kept.ite h.endOnAir ?_
    split
    · exact h.endOnAir
    · exact Kept.ite h.endOnAir (Kept.ite h.beginClosing h.endOnAir)

theorem Kept.beginSignoff {c : Chan} (h : Kept s t) : Kept s (beginSignoff c t) :=
  Kept.ite h.setChan.signoffEnd h.setChan

theorem Kept.reportOffset {bus : Bus} {c : Chan} (h : Kept s t) : Kept s (reportOffset bus c t) := by
  unfold Machine.reportOffset
  split
  · exact h
  · exact h.setTelex.markPassed

theorem Kept.finalLineEnd {bus : Bus} {c : Chan} (h : Kept s t) : Kept s (finalLineEnd bus c t) :=
  h.reportOffset.beginSignoff

theorem Kept.beginLine {bus : Bus} {c : Chan} {rd : Reading} {final : Bool} (h : Kept s t) :
    Kept s (beginLine bus c rd final t) := by
  have begun := h.setChan (c := c) (f := fun ch =>
    let started : Channel :=
      { ch with segment := some .text, rest := rd.line, lineFinal := final, waiting := false, codeDue := true }
    if final then { started with fetch := { started.fetch with reading := none, reread := none, starvation := none } }
    else started.setLookahead t.store.working (rd.nextLine ch.item.lineEnd))
    (fun ch x => by
      dsimp only
      split <;> exact x)
  exact Kept.ite begun.finalLineEnd begun

theorem Kept.beginFirstLine {bus : Bus} {c : Chan} (h : Kept s t) : Kept s (beginFirstLine bus c t) := by
  unfold Machine.beginFirstLine
  split
  · split
    · exact h.beginLine
    · exact h
  · exact h

theorem Kept.enterText {c : Chan} {resumed : Bool} (h : Kept s t) : Kept s (enterText c resumed t) := h.setChan

theorem Kept.beginText {bus : Bus} {c : Chan} {resumed : Bool} (h : Kept s t) : Kept s (beginText bus c resumed t) :=
  Kept.ite h.enterText h.enterText.beginFirstLine

theorem Kept.cutNoticeEnd {c : Chan} (h : Kept s t) : Kept s (cutNoticeEnd c t) := by
  unfold Machine.cutNoticeEnd
  split
  · exact h.endOnAir
  · exact h.handBackFree
  · exact h.handBackFree

theorem Kept.cutAtBreak {c : Chan} (h : Kept s t) : Kept s (cutAtBreak c t) := by
  unfold Machine.cutAtBreak
  split
  · exact h
  · exact Kept.ite h.setTelex.setChan.cutNoticeEnd h.setTelex.setChan

theorem Kept.continueOrCut {bus : Bus} {c : Chan} {rd : Reading} {final : Bool} (h : Kept s t) :
    Kept s (continueOrCut bus c rd final t) := Kept.ite h.beginLine h.cutAtBreak

theorem Kept.enterWait {c : Chan} {blocked : Bool} (h : Kept s t) : Kept s (enterWait c blocked t) :=
  Kept.ite h.cutAtBreak h.setChan

theorem Kept.afterLine {bus : Bus} {c : Chan} (h : Kept s t) : Kept s (afterLine bus c t) := by
  refine Kept.ite h.cutAtBreak ?_
  split
  · exact h.cutAtBreak
  · split
    · exact h.continueOrCut
    · exact h.finalLineEnd
    · exact h.enterWait
    · exact h.enterWait
    · exact h.cutAtBreak

theorem Kept.waitBoundary {bus : Bus} {c : Chan} (h : Kept s t) : Kept s (waitBoundary bus c t) := by
  refine Kept.ite h.cutAtBreak (Kept.ite h.finalLineEnd (Kept.ite h.cutAtBreak ?_))
  split
  · split
    · exact h.continueOrCut
    · exact h
  · exact h

theorem Kept.beginAttempt {c : Chan} {item : TelexItem} (h : Kept s t) : Kept s (beginAttempt c item t) := h.setChan

theorem Kept.beginCall {c : Chan} {item : TelexItem} {resumed : Bool} (h : Kept s t) :
    Kept s (beginCall c item resumed t) := Kept.beginAttempt h.setChan

theorem Channel.put_line (kind : TxKind) (code : Byte) (ch : Channel) : (ch.put kind code).line = ch.line := rfl

theorem Channel.putRest_line (kind : TxKind) (ch : Channel) : (ch.putRest kind).line = ch.line := by
  unfold Channel.putRest
  split <;> rfl

theorem Channel.putBody_line (ch : Channel) : ch.putBody.line = ch.line := by
  unfold Channel.putBody
  split
  · rfl
  · split <;> rfl

theorem Channel.putNext_line (ch : Channel) : ch.putNext.line = ch.line := by
  unfold Channel.putNext
  split
  · rfl
  · rfl
  · exact ch.putRest_line _
  · exact ch.putRest_line _
  · split
    · split
      · rfl
      · exact ch.putRest_line _
    · exact ch.putRest_line _
    · exact ch.putBody_line
  · split
    · rfl
    · exact ch.putBody_line
  · rfl

/-- The end of an event changes nothing of a line section. -/
theorem Channel.flush_line (ch : Channel) : ch.flush.line = ch.line := by
  unfold Channel.flush
  split
  · dsimp only
    split
    · exact Channel.putNext_line _
    · rfl
  · rfl

/-! ## The pick -/

theorem Kept.beginItem {bus : Bus} {c : Chan} (h : Kept s t) : Kept s (beginItem bus c t) := by
  unfold Machine.beginItem
  split
  · exact h
  · dsimp only
    split
    · split
      · exact h.setChan
      · exact Kept.ite (Kept.beginText h.setChan) (Kept.beginCall h.setChan)
    · exact Kept.setChan h.setChan
    · exact Kept.setChan h.setChan
    · exact Kept.setChan h.setChan

theorem Kept.keyUp {bus : Bus} {c : Chan} (h : Kept s t) : Kept s (keyUp bus c t) :=
  Kept.ite (Kept.beginItem h.setChan) (Kept.ite (Kept.beginItem h.setChan) h.setChan)

theorem Kept.putOn {c : Chan} {a : OnAir} (h : Kept s t) : Kept s (putOn c a t) := h.setChan

theorem Kept.readBody {c : Chan} {page : Nat} (h : Kept s t) : Kept s (readBody c page t) := h.setChan

theorem Kept.putBulletin {c : Chan} {e : CalEntry} (h : Kept s t) : Kept s (putBulletin c e t) :=
  h.putOn.readBody.bulletinStarted

theorem Kept.putPriority {c : Chan} {e : PrioEntry} (h : Kept s t) : Kept s (putPriority c e t) :=
  h.putOn.readBody.priorityStarted

theorem Kept.putTelex {c : Chan} {item : TelexItem} (h : Kept s t) : Kept s (putTelex c item t) := h.putOn.setTelex

theorem Kept.startHead {c : Chan} {rd : Reading} (h : Kept s t) : Kept s (startHead c rd t) :=
  Kept.ite (Kept.trigger h.setChan) h.setChan

theorem Kept.pickHead {bus : Bus} {c : Chan} (h : Kept s t) : Kept s (pickHead bus c t) := by
  unfold Machine.pickHead
  split
  · exact h
  · dsimp only
    split
    · exact h.startHead
    · refine Kept.ite h.startHead ?_
      split
      · exact Kept.ite h.putTelex.keyUp h
      · exact h

theorem Kept.pickTraffic {bus : Bus} {c : Chan} (h : Kept s t) : Kept s (pickTraffic bus c t) := by
  unfold Machine.pickTraffic
  split
  · exact h.putPriority.keyUp
  · split
    · exact h.putBulletin.keyUp
    · exact h.pickHead

theorem Kept.pickFollower {bus : Bus} {c : Chan} {e : CalEntry} (h : Kept s t) : Kept s (pickFollower bus c e t) :=
  Kept.keyUp (Kept.putBulletin h.setChan)

theorem Kept.pickRest {bus : Bus} {c : Chan} (h : Kept s t) : Kept s (pickRest bus c t) := by
  refine Kept.ite (Kept.ite h.enterHeld h) ?_
  split
  · exact h.pickFollower
  · exact h.enterHeld
  · exact h.enterRetuning
  · exact h.pickFollower
  · exact h.pickTraffic

theorem Kept.pickItem {bus : Bus} {c : Chan} (h : Kept s t) : Kept s (pickItem bus c t) := by
  unfold Machine.pickItem
  split
  · exact h.putPriority.keyUp
  · exact h.pickRest

theorem Kept.hangOut {c : Chan} (h : Kept s t) : Kept s (hangOut c t) := Kept.ite h.hangExpires h

theorem Kept.takeReduced {c : Chan} (h : Kept s t) : Kept s (takeReduced c t) := by
  unfold Machine.takeReduced
  split
  · exact h
  · exact h.putPriority.setChan

theorem Kept.judgeReduced {c : Chan} (h : Kept s t) : Kept s (judgeReduced c t) :=
  Kept.ite (Kept.ite h h.takeReduced) h.failRelays

theorem Kept.reducedEnd {c : Chan} (h : Kept s t) : Kept s (reducedEnd c t) := by
  unfold Machine.reducedEnd
  split
  · exact h.putPriority.setChan
  · exact Kept.ite (Kept.enterIdle (Kept.setChan h.setChan)) h.setChan

theorem Kept.endBody {c : Chan} {o : ChanOutcome} (h : Kept s t) : Kept s (endBody c o t) := by
  unfold Machine.endBody
  split
  · exact h
  · exact Kept.ite (Kept.reducedEnd h.reportBody.setChan) h.reportBody.becomeFree

theorem Kept.bodyFails {c : Chan} {b : BodyReading} (h : Kept s t) : Kept s (bodyFails c b t) :=
  Kept.ite (Kept.endBody h.setChan) h.setChan

theorem Kept.bodyPageReads {bus : Bus} {c : Chan} (h : Kept s t) : Kept s (bodyPageReads bus c t) := by
  unfold Machine.bodyPageReads
  split
  · exact h
  · split
    · exact h
    · exact Kept.ite h.raise.bodyFails (Kept.ite h.setChan h.bodyFails)

theorem Kept.relayTakes {c : Chan} (h : Kept s t) : Kept s (relayTakes c t) := by
  unfold Machine.relayTakes
  split
  · exact h
  · exact h.putPriority.setChan

theorem Kept.relayReplaces {c : Chan} (h : Kept s t) : Kept s (relayReplaces c t) := by
  unfold Machine.relayReplaces
  split
  · exact h
  · exact h.abruptCut.putPriority.setChan

theorem Kept.offerRelay {slot : Nat} {c : Chan} (h : Kept s t) : Kept s (offerRelay slot c t) := by
  unfold Machine.offerRelay
  split
  · exact h.trigger
  · exact h.trigger
  · exact h.priorityReport
  · exact h.priorityReport
  · exact Kept.ite h.judgeReduced h.priorityReport
  all_goals exact h

theorem Kept.makePick {bus : Bus} {c : Chan} (h : Kept s t) : Kept s (makePick bus c t) := by
  have asked := h.setChan (c := c) (f := fun ch => { ch with pick := .none })
  unfold Machine.makePick
  dsimp only
  split
  · exact asked.pickItem
  · exact asked.pickItem.hangOut
  · exact asked

theorem Kept.runPicks {bus : Bus} {n : Nat} (h : Kept s t) : Kept s (runPicks bus n t) := by
  induction n generalizing t with
  | zero => exact h
  | succ n ih =>
    unfold Machine.runPicks
    split
    · exact h
    · exact ih h.makePick

theorem Kept.settlePicks {bus : Bus} (h : Kept s t) : Kept s (settlePicks bus t) :=
  Kept.runPicks (h.runPicks.eachChan (fun _ _ k => k.bodyPageReads))

/-- The end of an event. -/
theorem Kept.settleEvent {bus : Bus} (h : Kept s t) : Kept s (settleEvent bus t) :=
  h.settlePicks.eachChan (fun _ _ k => k.setChan (fun ch x => by rw [ch.flush_line]; exact x))

/-! ## The character boundary, the lead and the hang -/

theorem Kept.actCause {c : Chan} {cause : Cause} (h : Kept s t) : Kept s (actCause c cause t) := by
  unfold Machine.actCause
  split
  · exact h.offBoundary
  · exact h.stopCuts
  · exact Kept.ite h.relayReplaces h.abruptCut.relayTakes

theorem Kept.actWaiting {c : Chan} (h : Kept s t) : Kept s (actWaiting c t) := by
  unfold Machine.actWaiting
  split
  · exact h.actCause
  · exact h

theorem Kept.textCodeEnded {c : Chan} (h : Kept s t) : Kept s (textCodeEnded c t) := by
  unfold Machine.textCodeEnded
  split
  · exact h
  · exact h.setTelex.setChan

theorem Kept.textBoundary {bus : Bus} {c : Chan} (h : Kept s t) : Kept s (textBoundary bus c t) := by
  have counted := Kept.ite (p := ((t.chan c).tx.map Tx.kind) = some .text) (h.textCodeEnded (c := c)) h
  exact Kept.ite (Kept.ite h h.waitBoundary)
    (Kept.ite counted (Kept.ite counted.finalLineEnd (Kept.ite counted.reportOffset counted.reportOffset.afterLine)))

theorem Kept.telexBoundary {bus : Bus} {c : Chan} (h : Kept s t) : Kept s (telexBoundary bus c t) := by
  unfold Machine.telexBoundary
  dsimp only
  split
  · exact h.textBoundary
  · exact Kept.ite h.beginFirstLine h
  · exact Kept.ite h.cutNoticeEnd h
  · exact Kept.ite h.signoffEnd h
  · exact h

theorem Kept.bodyBoundary {c : Chan} (h : Kept s t) : Kept s (bodyBoundary c t) := by
  unfold Machine.bodyBoundary
  dsimp only
  split
  · exact h
  · exact Kept.ite h.endBody (Kept.ite h.endBody h)

theorem Kept.callBoundary {c : Chan} (h : Kept s t) : Kept s (callBoundary c t) := Kept.ite h.setChan h

theorem Kept.ownBoundary {bus : Bus} {c : Chan} (h : Kept s t) : Kept s (ownBoundary bus c t) := by
  unfold Machine.ownBoundary
  dsimp only
  split
  · exact h.callBoundary
  · exact h.callBoundary
  · exact Kept.ite h.telexBoundary h.bodyBoundary
  · exact h.bodyBoundary
  · exact h.setChan
  · exact h

theorem Kept.characterBoundary {bus : Bus} {c : Chan} (h : Kept s t) : Kept s (characterBoundary bus c t) :=
  Kept.ite h (Kept.ownBoundary h.setChan).actWaiting

theorem Kept.leadExpires {bus : Bus} {c : Chan} (h : Kept s t) : Kept s (leadExpires bus c t) :=
  Kept.ite h (Kept.ite (Kept.ite h.relayReplaces h).beginItem h.setChan)

/-! ## The answerback and the page reads -/

theorem Kept.countAttempt {c : Chan} {slot : Nat} (h : Kept s t) : Kept s (countAttempt c slot t) := h.setTelex.setChan

theorem Kept.furtherAttempt {c : Chan} {item : TelexItem} (h : Kept s t) : Kept s (furtherAttempt c item t) :=
  Kept.ite h.handBackUncut (Kept.ite h.beginAttempt.actWaiting h.handBackUncut)

theorem Kept.answerbackExpires {c : Chan} (h : Kept s t) : Kept s (answerbackExpires c t) := by
  refine Kept.ite ?_ h
  split
  · exact h
  · exact Kept.ite (Kept.endOnAir h.countAttempt.setChan) h.countAttempt.furtherAttempt

theorem Kept.closingExpires {c : Chan} (h : Kept s t) : Kept s (closingExpires c t) := Kept.ite h.endOnAir h

theorem Kept.matched {bus : Bus} {c : Chan} {item : TelexItem} (h : Kept s t) : Kept s (matched bus c item t) :=
  have answered := Kept.setChan (c := c) (f := Channel.standBy)
    (h.countAttempt (c := c) (slot := item.slot) |>.setTelex (slot := item.slot) (f := fun i => { i with state := .onAir }))
  Kept.ite h.endOnAir (Kept.ite answered.enterText.actWaiting answered.beginText)

theorem Kept.fullWindow {c : Chan} {item : TelexItem} (h : Kept s t) : Kept s (fullWindow c item t) :=
  Kept.ite h.endOnAir (Kept.endOnAir h.countAttempt.setChan)

theorem Kept.rxdArrives {bus : Bus} {c : Chan} {code : Byte} (h : Kept s t) : Kept s (rxdArrives bus c code t) := by
  refine Kept.ite h ?_
  split
  · exact h
  · exact Kept.ite (Kept.matched h.setChan) (Kept.ite (Kept.fullWindow h.setChan) h.setChan)

theorem Kept.lookaheadRead {bus : Bus} {c : Chan} {rd : Reading} (h : Kept s t) : Kept s (lookaheadRead bus c rd t) := by
  have read := h.setChan (c := c) (f := Channel.setLookahead t.store.working rd)
  unfold Machine.lookaheadRead
  dsimp only
  split
  · exact read.markPassed
  · exact read

theorem Kept.headRead {c : Chan} {rd : Reading} (h : Kept s t) : Kept s (headRead c rd t) := by
  have read := h.setChan (c := c) (f := Channel.setReading t.store.working rd)
  unfold Machine.headRead
  dsimp only
  split
  · exact read.trigger
  · exact read.endTelex
  all_goals exact read

theorem Kept.readingMoves {bus : Bus} {c : Chan} {rd : Reading} (h : Kept s t) : Kept s (readingMoves bus c rd t) :=
  Kept.ite h.lookaheadRead h.headRead

theorem Kept.telexPage {bus : Bus} {c : Chan} {rd : Reading} {page walked start skip : Nat} (h : Kept s t) :
    Kept s (telexPage bus c rd page walked start skip t) :=
  (Kept.ite (Kept.setChan h.raiseIf) h.raiseIf).readingMoves

theorem Kept.telexReread {bus : Bus} {c : Chan} {rd : Reading} (h : Kept s t) : Kept s (telexReread bus c rd t) := by
  unfold Machine.telexReread
  split
  · exact h
  · exact (Kept.ite h.raiseIf (Kept.setChan h.raiseIf)).readingMoves

theorem Kept.telexPageReads {bus : Bus} {c : Chan} (h : Kept s t) : Kept s (telexPageReads bus c t) := by
  unfold Machine.telexPageReads
  split
  · exact h
  · split
    · exact h
    · exact h.telexPage
    · exact h.telexReread

/-! ## The lines -/

theorem Kept.endRetune {c : Chan} {result : Result} (h : Kept s t) : Kept s (endRetune c result t) :=
  h.answerHeld.setChan

theorem Kept.enterFaulted {c : Chan} {kind : FaultKind} (h : Kept s t) : Kept s (enterFaulted c kind t) :=
  Kept.ite h (Kept.ite h.setChan.clearMark (Kept.judgeReduced (Kept.clearMark (Kept.setChan h.abruptCut.endRetune))))

theorem Kept.lockOut {c : Chan} (h : Kept s t) : Kept s (lockOut c t) :=
  Kept.failRelays (Kept.clearMark (Kept.setChan h.abruptCut.raise.answerHeld.answerHeld))

theorem Kept.offAtOnset {c : Chan} (h : Kept s t) : Kept s (offAtOnset c t) :=
  Kept.ite (Kept.ite (Kept.judgeReduced h.setChan) h.enterOff) h

theorem LineSection.countOnset_faults {quietMs : Nat} {l : LineSection} (h : l.faults ≤ 3) :
    (l.countOnset quietMs).faults ≤ 3 := by
  show (if l.quiet.isNone ∧ l.faults < 3 then l.faults + 1 else l.faults) ≤ 3
  split <;> omega

theorem Kept.onset {c : Chan} {kind : FaultKind} (h : Kept s t) : Kept s (onset c kind t) := by
  have counted := (Kept.enterFaulted (c := c) (kind := kind) (h.setChan (c := c) (f := Channel.noteOnset kind))).raiseIf
    (b := (t.chan c).state.serving) (f := .fault) |>.setChan (c := c)
      (f := fun ch => { ch with line := ch.line.countOnset (t.store.working.quietSeconds * 1000) })
      (fun _ x => LineSection.countOnset_faults x)
  exact Kept.ite counted.lockOut counted.offAtOnset

theorem Kept.recover {c : Chan} (h : Kept s t) : Kept s (recover c t) := Kept.ite h (Kept.ite h.setChan h.enterIdle)

theorem Kept.recoverIfDue {c : Chan} (h : Kept s t) : Kept s (recoverIfDue c t) := Kept.ite (Kept.recover h.setChan) h

theorem Kept.stopEdge {c : Chan} (h : Kept s t) : Kept s (stopEdge c t) := by
  have wait := (h.raise (f := .stopKey)).setChan (c := c)
    (f := fun ch => if ch.offWaits then ch else { ch with stopAtBoundary := true })
    (fun ch x => by split <;> exact x)
  unfold Machine.stopEdge
  dsimp only
  split
  · exact h.raise.enterHeld
  · exact h.raise.enterHeld
  · exact wait
  · exact wait
  · exact wait
  · exact wait
  · exact wait
  · exact h.raise.setChan
  all_goals exact h.raise

theorem Kept.checkOnset {c : Chan} (h : Kept s t) : Kept s (checkOnset c t) :=
  Kept.ite (Kept.onset h.setChan) (Kept.ite (Kept.onset h.setChan) h)

theorem Kept.readyReport {c : Chan} {present : Bool} (h : Kept s t) : Kept s (readyReport c present t) := by
  have seen := h.setChan (c := c) (f := fun ch => { ch with readyView := present })
  unfold Machine.readyReport
  dsimp only
  split
  · exact Kept.ite seen (seen.setChan)
  · exact Kept.ite seen.enterIdle seen
  · exact seen

theorem Kept.checkReady {c : Chan} (h : Kept s t) : Kept s (checkReady c t) :=
  Kept.ite h (Kept.ite (Kept.readyReport h.setChan) (Kept.ite (Kept.readyReport h.setChan) h))

theorem Kept.retuneSucceeds {c : Chan} (h : Kept s t) : Kept s (retuneSucceeds c t) :=
  Kept.ite h.answerHeld.setChan.enterHeld h.answerHeld.setChan.enterIdle

theorem Kept.watchRetune {c : Chan} {ready : Bool} (h : Kept s t) : Kept s (watchRetune c ready t) :=
  Kept.ite h (Kept.ite h.setChan (Kept.ite h.retuneSucceeds h.setChan))

theorem Kept.checkAux {c : Chan} {aux : Bool} (h : Kept s t) : Kept s (checkAux c aux t) :=
  Kept.ite h (Kept.ite (Kept.stopEdge h.setChan) h.setChan)

theorem Kept.checkLevels {c : Chan} {ready alarm : Bool} (h : Kept s t) : Kept s (checkLevels c ready alarm t) :=
  Kept.ite h (Kept.recoverIfDue (Kept.ite (Kept.watchRetune (Kept.checkOnset h.setChan))
    (Kept.checkReady (Kept.checkOnset h.setChan))))

theorem Kept.lineChecks {bus : Bus} {c : Chan} {ready alarm aux : Bool} (h : Kept s t) :
    Kept s (lineChecks bus c ready alarm aux t) :=
  Kept.ite h (Kept.checkAux (Kept.runPicks (Kept.checkLevels h.setChan)))

theorem Kept.quietExpires {c : Chan} (h : Kept s t) : Kept s (quietExpires c t) :=
  Kept.ite (Kept.recoverIfDue h.setChan) h

theorem Kept.retuneFails {c : Chan} (h : Kept s t) : Kept s (retuneFails c t) := Kept.ite h.onset h

/-! ## The clock's arrivals and limits, and the settings -/

theorem Kept.startTimes (h : Kept s t) : Kept s (startTimes t) :=
  (h.foldl (f := fun s e => Machine.becomeDue e s) (fun _ _ k => k.becomeDue)).foldl
    (fun _ _ k => k.eachChan (fun _ _ x => x.compareWait))

theorem Kept.latestStart {slot : Nat} (h : Kept s t) : Kept s (latestStart slot t) := by
  unfold Machine.latestStart
  split
  · exact h
  · exact Kept.ite h.limitPasses h

theorem Kept.urgentLimit {slot : Nat} (h : Kept s t) : Kept s (urgentLimit slot t) := by
  unfold Machine.urgentLimit
  split
  · exact h
  · exact Kept.ite h.urgentPasses h

theorem Kept.jumpCalendar {old new : Nat} (h : Kept s t) : Kept s (jumpCalendar old new t) :=
  Kept.ite h.forwardJump h.backwardJump

theorem Kept.switchOn {c : Chan} (h : Kept s t) : Kept s (switchOn c t) := Kept.ite (Kept.enterIdle h.setChan) h

theorem Kept.switchOff {c : Chan} (h : Kept s t) : Kept s (switchOff c t) :=
  Kept.ite h (Kept.ite (Kept.clearMark (Kept.setChan h.endRetune.answerHeld.answerHeld.setChan))
    (Kept.enterOff (Kept.abruptCut h.endRetune.answerHeld.answerHeld.setChan)))

theorem Kept.rejudge {c : Chan} (h : Kept s t) : Kept s (rejudge c t) := Kept.ite h.judgeReduced h

theorem Kept.makeEnding {c : Chan} {slot : Nat} (h : Kept s t) : Kept s (makeEnding c slot t) :=
  h.setTelex.setChan (fun ch x => by split <;> exact x)

theorem Kept.clearChannel {c : Chan} (h : Kept s t) : Kept s (clearChannel c t) := by
  have cleared := h.setChan (c := c) (f := fun ch => { ch with line := ch.line.clearFaults }) (fun _ _ => Nat.zero_le 3)
  exact Kept.ite (Kept.ite cleared.enterIdle cleared.enterOff) cleared.recover

end Sys2Proof.Machine
end

