-- ==== Sys2Proof/Laws/Rack.lean ====
section
/-! SUPPORT. What the Rack Port's operations do: the sweep's steps, the visits, the taking and the answering of a
docket; and the invariants that they and the channels' operations keep. -/

namespace Sys2Proof.Machine

set_option Elab.async false

variable {s t : State}

/-- From `s` to `t` the Rack Port has worked, and nothing else: only its own state and host memory have changed, and of
its registers and marks only STATUS, the sweep, the counters, the answers and the takings. -/
structure RackWork (s t : State) : Prop where
  power : t.power = s.power
  resetPin : t.resetPin = s.resetPin
  clock : t.clock = s.clock
  store : t.store = s.store
  fresh : t.fresh = s.fresh
  pending : t.pending = s.pending
  chans : t.chans = s.chans
  run : t.rack.run = s.rack.run
  basesOpen : t.rack.basesOpen = s.rack.basesOpen
  rackBase : t.rack.rackBase = s.rack.rackBase
  pageBase : t.rack.pageBase = s.rack.pageBase
  mask : t.rack.mask = s.rack.mask
  epoch : t.rack.epoch = s.rack.epoch
  events : ∀ i, s.rack.events.getLsbD i = true → t.rack.events.getLsbD i = true
  telex : t.telex.map (fun i => (i.slot, i.channel)) = s.telex.map (fun i => (i.slot, i.channel))
  calendar : t.calendar.map CalEntry.slot = s.calendar.map CalEntry.slot
  priority : t.priority.map PrioEntry.slot = s.priority.map PrioEntry.slot
  mem : Mem.wf s.mem = true → Mem.wf t.mem = true

theorem RackWork.refl (s : State) : RackWork s s :=
  ⟨rfl, rfl, rfl, rfl, rfl, rfl, rfl, rfl, rfl, rfl, rfl, rfl, rfl, fun _ h => h, rfl, rfl, rfl, fun h => h⟩

theorem RackWork.trans {u : State} (h : RackWork s t) (k : RackWork t u) : RackWork s u :=
  ⟨k.power.trans h.power, k.resetPin.trans h.resetPin, k.clock.trans h.clock, k.store.trans h.store,
    k.fresh.trans h.fresh, k.pending.trans h.pending, k.chans.trans h.chans, k.run.trans h.run,
    k.basesOpen.trans h.basesOpen, k.rackBase.trans h.rackBase, k.pageBase.trans h.pageBase, k.mask.trans h.mask,
    k.epoch.trans h.epoch, fun i x => k.events i (h.events i x), k.telex.trans h.telex, k.calendar.trans h.calendar,
    k.priority.trans h.priority, fun x => k.mem (h.mem x)⟩

theorem RackWork.ite {u : State} {p : Prop} [Decidable p] (h : RackWork s t) (k : RackWork s u) :
    RackWork s (if p then t else u) := by
  split
  · exact h
  · exact k

theorem RackWork.foldl {α : Type} {f : State → α → State} {l : List α} (h : RackWork s t)
    (hf : ∀ u a, RackWork s u → RackWork s (f u a)) : RackWork s (l.foldl f t) := by
  induction l generalizing t with
  | nil => exact h
  | cons a l ih => exact ih (hf t a h)

/-! ## The plain updates -/

theorem RackWork.hostStores {bus : Bus} (h : RackWork s t) : RackWork s (t.hostStores bus) :=
  h.trans { RackWork.refl t with mem := State.hostStores_wf }

theorem RackWork.storeAt {base : Word} {cells : List (Nat × Byte)} (h : RackWork s t) :
    RackWork s (t.storeAt base cells) := h.trans { RackWork.refl t with mem := State.storeAt_wf }

theorem RackWork.storeSlot {slot : Nat} {cells : List (Nat × Byte)} (h : RackWork s t) :
    RackWork s (t.storeSlot slot cells) := h.trans { RackWork.refl t with mem := State.storeSlot_wf }

theorem RackWork.raise {f : Flag} (h : RackWork s t) : RackWork s (t.raise f) :=
  h.trans { RackWork.refl t with events := fun i x => by simp [BitVec.getLsbD_or, x] }

theorem RackWork.raiseIf {b : Bool} {f : Flag} (h : RackWork s t) : RackWork s (t.raiseIf b f) := h.raise.ite h

theorem RackWork.setRack {f : Rack → Rack} (h : RackWork s t)
    (run : (f t.rack).run = t.rack.run := by rfl) (basesOpen : (f t.rack).basesOpen = t.rack.basesOpen := by rfl)
    (rackBase : (f t.rack).rackBase = t.rack.rackBase := by rfl)
    (pageBase : (f t.rack).pageBase = t.rack.pageBase := by rfl)
    (mask : (f t.rack).mask = t.rack.mask := by rfl) (epoch : (f t.rack).epoch = t.rack.epoch := by rfl)
    (events : (f t.rack).events = t.rack.events := by rfl) :
    RackWork s { t with rack := f t.rack } :=
  h.trans { RackWork.refl t with
    run := run, basesOpen := basesOpen, rackBase := rackBase, pageBase := pageBase, mask := mask, epoch := epoch
    events := fun i x => by rw [events]; exact x }

theorem RackWork.pushAnswer {slot : Nat} {result : Result} {reason : Option Reason} {progress : Progress}
    {expected : Expected} {seq : Option Nat} {walk : Bool} (h : RackWork s t) :
    RackWork s (pushAnswer slot result reason progress expected seq walk t) :=
  h.trans (RackWork.refl t |>.setRack (f := fun r => { r with backlog := _ }))

theorem RackWork.answerAtIntake {slot : Nat} {result : Result} {reason : Option Reason} {progress : Progress}
    (h : RackWork s t) : RackWork s (answerAtIntake slot result reason progress t) :=
  h.trans (RackWork.refl t |>.setRack (f := fun r => { r with backlog := _, seq := _ }))

theorem RackWork.refuse {slot : Nat} {reason : Reason} (h : RackWork s t) : RackWork s (refuse slot reason t) :=
  h.answerAtIntake

theorem RackWork.answerDone {slot : Nat} (h : RackWork s t) : RackWork s (answerDone slot t) := h.answerAtIntake

theorem RackWork.holdDocket (h : RackWork s t) : RackWork s (holdDocket t) :=
  RackWork.trans (h.raise (f := .deferred))
    (RackWork.refl _ |>.setRack (f := fun r => { r with held := _ }))

/-! ## The sweep -/

theorem RackWork.abandonWrite {bus : Bus} {slot : Nat} (h : RackWork s t) : RackWork s (abandonWrite bus slot t) := by
  unfold Machine.abandonWrite
  dsimp only
  split
  · exact h.storeSlot.raise
  · exact RackWork.trans (h.storeSlot.raise)
      (RackWork.refl _ |>.setRack (f := fun r => { r with posted := _, abandon := _ }))

theorem RackWork.abandonVisit {bus : Bus} {slot : Nat} (h : RackWork s t) : RackWork s (abandonVisit bus t slot) :=
  h.raise.ite (h.abandonWrite.ite (h.setRack (f := fun r => { r with abandon := _ })))

theorem RackWork.takeAgain {bus : Bus} {p : Nat × Nat} (h : RackWork s t) : RackWork s (takeAgain bus t p) := by
  unfold Machine.takeAgain
  split
  · exact h.storeSlot.raise
  · exact RackWork.trans h.storeSlot (RackWork.refl _ |>.setRack (f := fun r => { r with pendingTakes := _ }))

theorem RackWork.answerPosted {a : Answer} (h : RackWork s t) : RackWork s (answerPosted a t) :=
  RackWork.trans (h.raise (f := .answer))
    (RackWork.refl _ |>.setRack (f := fun r => { r with backlog := _, posted := _, pendingTakes := _ }))

theorem RackWork.postAnswers {bus : Bus} {l : List Answer} (h : RackWork s t) : RackWork s (postAnswers bus l t) := by
  induction l generalizing t with
  | nil => exact h
  | cons a l ih =>
    unfold Machine.postAnswers
    refine h.ite (h.raise.ite ?_)
    have checked : RackWork s (Machine.checkExpected a t) := h.raiseIf
    dsimp only
    split
    · exact checked.storeSlot.raise
    · exact ih checked.storeSlot.answerPosted

theorem RackWork.clearChanged {slot : Nat} (h : RackWork s t) : RackWork s (clearChanged slot t) :=
  h.trans
    { RackWork.refl t with
      telex := map_keeps _ _ _ (fun i => by split <;> rfl)
      calendar := map_keeps _ _ _ (fun e => by split <;> rfl)
      priority := map_keeps _ _ _ (fun e => by split <;> rfl) }

theorem RackWork.progressVisit {bus : Bus} {slot : Nat} (h : RackWork s t) : RackWork s (progressVisit bus t slot) := by
  unfold Machine.progressVisit
  split
  · exact h
  · split
    · exact h.storeSlot.raise
    · exact h.storeSlot.clearChanged

theorem RackWork.writeProgress {bus : Bus} (h : RackWork s t) : RackWork s (writeProgress bus t) :=
  h.foldl (fun _ _ k => k.progressVisit)

theorem RackWork.writeHeader {bus : Bus} (h : RackWork s t) : RackWork s (writeHeader bus t) := by
  unfold Machine.writeHeader
  split
  · exact RackWork.trans h.storeAt.raise (RackWork.refl _ |>.setRack (f := fun r => { r with held := _ }))
  · exact RackWork.trans h.storeAt (RackWork.refl _ |>.setRack (f := fun r => { r with held := _ }))

theorem RackWork.startSweep {bus : Bus} (h : RackWork s t) : RackWork s (startSweep bus t) := by
  have begun : RackWork s { t with rack := { t.rack with
      sweepTimer := none, latch := false, sweep := some 0, sweepCount := (t.rack.sweepCount + 1) % 65536 } } :=
    h.setRack (f := fun r => { r with sweepTimer := _, latch := _, sweep := _, sweepCount := _ })
  have answered : ∀ {u : State}, RackWork s u → RackWork s (Machine.writeHeader bus (Machine.writeProgress bus
      (Machine.postAnswers bus (u.rack.pendingTakes.foldl (Machine.takeAgain bus) u).rack.backlog
        (u.rack.pendingTakes.foldl (Machine.takeAgain bus) u)))) := fun k =>
    (k.foldl (f := Machine.takeAgain bus) (fun _ _ k => k.takeAgain)).postAnswers.writeProgress.writeHeader
  unfold Machine.startSweep
  exact answered (begun.foldl (f := Machine.abandonVisit bus) (fun _ _ k => k.abandonVisit))

theorem RackWork.requestSweep {bus : Bus} (h : RackWork s t) : RackWork s (requestSweep bus t) :=
  (h.setRack (f := fun r => { r with latch := _ })).ite h.startSweep

/-- The visits up to the first docket handed over raise flags and do nothing else; the visit of that docket hands it
over. -/
theorem scan_spec {bus : Bus} : ∀ {n slot : Nat} {s s1 : State} {r : Option Nat}, scan bus n slot s = (s1, r) →
    (∃ flags, s1 = { s with rack := { s.rack with events := flags } }
        ∧ ∀ i, s.rack.events.getLsbD i = true → flags.getLsbD i = true)
      ∧ ∀ k, r = some k → slot ≤ k ∧ k < slot + n ∧ visitOf bus s1 k = .handed := by
  intro n
  induction n with
  | zero =>
    intro slot s s1 r h
    cases h
    exact ⟨⟨s.rack.events, rfl, fun _ x => x⟩, fun k hk => nomatch hk⟩
  | succ n ih =>
    intro slot s s1 r h
    unfold scan at h
    split at h
    · obtain ⟨e, g⟩ := ih h
      exact ⟨e, fun k hk => ⟨by have := (g k hk).1; omega, by have := (g k hk).2.1; omega, (g k hk).2.2⟩⟩
    · obtain ⟨⟨flags, e, m⟩, g⟩ := ih h
      refine ⟨⟨flags, e, fun i x => m i ?_⟩, fun k hk =>
        ⟨by have := (g k hk).1; omega, by have := (g k hk).2.1; omega, (g k hk).2.2⟩⟩
      simp [State.raise, BitVec.getLsbD_or, x]
    · obtain ⟨⟨flags, e, m⟩, g⟩ := ih h
      refine ⟨⟨flags, e, fun i x => m i ?_⟩, fun k hk =>
        ⟨by have := (g k hk).1; omega, by have := (g k hk).2.1; omega, (g k hk).2.2⟩⟩
      simp [State.raise, BitVec.getLsbD_or, x]
    · cases h
      rename_i v
      exact ⟨⟨s.rack.events, rfl, fun _ x => x⟩, fun k hk => by cases hk; exact ⟨Nat.le_refl _, by omega, v⟩⟩

theorem RackWork.scanFrom {bus : Bus} {cursor : Nat} (h : RackWork s t) : RackWork s (scanFrom bus cursor t).1 := by
  obtain ⟨flags, e, m⟩ := (scan_spec (s1 := (Machine.scanFrom bus cursor t).1) (r := (Machine.scanFrom bus cursor t).2)
    (bus := bus) (n := 128 - cursor) (slot := cursor) (s := t) rfl).1
  rw [e]
  exact h.trans { RackWork.refl t with events := m }

theorem RackWork.endSweep {bus : Bus} (h : RackWork s t) : RackWork s (endSweep bus t) := by
  have ended : RackWork s { t with rack := { t.rack with sweep := none } } :=
    h.setRack (f := fun r => { r with sweep := none })
  exact ended.startSweep.ite ((ended.setRack (f := fun r => { r with sweepTimer := _ })).ite ended)

theorem RackWork.sweepEnds {bus : Bus} (h : RackWork s t) : RackWork s (sweepEnds bus t) := by
  unfold Machine.sweepEnds
  split
  · exact h
  · rename_i cursor _
    have visited := h.scanFrom (bus := bus) (cursor := cursor)
    split
    · rename_i s1 e
      rw [e] at visited
      exact visited.endSweep
    · exact h

/-- A docket handed over: the state is as it was but for flags raised and the pass moved on, and the slot holds a FILED
docket of that kind, and the part holds nothing of the slot. -/
theorem handedOver_spec {bus : Bus} {slot : Nat} {kind : Option Kind} {u : State}
    (h : s.handedOver bus slot kind = some u) :
    (∃ flags, u = { s with rack := { s.rack with events := flags, sweep := some (slot + 1) } }
        ∧ ∀ i, s.rack.events.getLsbD i = true → flags.getLsbD i = true)
      ∧ slot < 128 ∧ u.slotKind slot = kind ∧ u.slotState slot = 1 ∧ u.holdsSlot slot = false
      ∧ u.rack.abandon.contains slot = false := by
  unfold State.handedOver at h
  split at h
  · cases h
  · split at h
    · rename_i cursor _ s1 k e
      split at h
      · rename_i hk
        obtain ⟨⟨flags, es, m⟩, g⟩ := scan_spec e
        obtain ⟨lo, hi, v⟩ := g k rfl
        obtain ⟨rfl, kind⟩ := hk
        cases h
        refine ⟨⟨flags, by rw [es], m⟩, by omega, kind, ?_⟩
        unfold visitOf at v
        repeat' split at v
        all_goals cases v
        rename_i ab _ st _ _ ho
        have state : s1.slotState k = 1 := by simpa using st
        have held : s1.holdsSlot k = false := by simpa using ho
        have abandoned : s1.rack.abandon.contains k = false := by simpa using ab
        exact ⟨state, held, abandoned⟩
      · cases h
    · cases h

theorem RackWork.handedOver {bus : Bus} {slot : Nat} {kind : Option Kind} {u : State}
    (e : t.handedOver bus slot kind = some u) (h : RackWork s t) : RackWork s u := by
  obtain ⟨⟨flags, e, m⟩, _⟩ := handedOver_spec e
  rw [e]
  exact h.trans { RackWork.refl t with events := m }

theorem RackWork.takeDocket {bus : Bus} {slot : Nat} (h : RackWork s t) : RackWork s (takeDocket bus slot t) := by
  have counted : RackWork s { t with rack := { t.rack with seq := nextSeq t.rack.seq } } :=
    h.setRack (f := fun r => { r with seq := nextSeq r.seq })
  unfold Machine.takeDocket
  dsimp only
  split
  · exact RackWork.trans counted.storeSlot.raise (RackWork.refl _ |>.setRack (f := fun r => { r with pendingTakes := _ }))
  · exact counted.storeSlot

/-- The work of a marking walk at its end: the answer no longer waits for it. -/
theorem RackWork.walkStopped {slot : Nat} (h : RackWork s t) : RackWork s (walkStopped slot t) :=
  h.setRack (f := fun r => { r with backlog := _ })

end Sys2Proof.Machine
end

