-- ==== Sys2Proof/Laws/Sound.lean ====
section
/-! SUPPORT. The invariants of the part are kept by whatever the channels and owners do between them (`Kept`) and by
whatever the Rack Port does (`RackWork`). -/

namespace Sys2Proof.Machine

set_option Elab.async false

variable {s t : State}

/-! ## Queue lengths by slot and channel -/

theorem State.queue_length (s : State) (c : Chan) :
    (s.queue c).length = ((s.telex.map (fun i => (i.slot, i.channel))).filter (fun p => p.2 == c)).length := by
  unfold State.queue
  rw [List.filter_map, List.length_map]
  rfl

theorem telexSlots_eq (s : State) :
    s.telex.map TelexItem.slot = (s.telex.map (fun i => (i.slot, i.channel))).map Prod.fst := by
  rw [List.map_map]
  rfl

/-! ## What the channels and owners do -/

theorem Kept.clockInRange (h : Kept s t) (i : s.ClockInRange) : t.ClockInRange := by
  unfold State.ClockInRange
  rw [h.clock]
  exact i

theorem Kept.memoryCanonical (h : Kept s t) (i : s.MemoryCanonical) : t.MemoryCanonical := (h.mem i).1

theorem Kept.withinCapacity (h : Kept s t) (i : s.WithinCapacity) : t.WithinCapacity := by
  obtain ⟨pool, queues, calendar, priority⟩ := i
  refine ⟨?_, fun c => ?_, ?_, ?_⟩
  · have := h.telex.length_le
    simp only [List.length_map] at this
    exact Nat.le_trans this pool
  · have := queues c
    rw [State.queue_length] at this ⊢
    exact Nat.le_trans (h.telex.filter _).length_le this
  · have := h.calendar.length_le
    simp only [List.length_map] at this
    exact Nat.le_trans this calendar
  · have := h.priority.length_le
    simp only [List.length_map] at this
    exact Nat.le_trans this priority

theorem Kept.faultsInRange (h : Kept s t) (i : s.FaultsInRange) : t.FaultsInRange := fun c => h.faults c (i c)

theorem Kept.basesClosed (h : Kept s t) (i : s.BasesClosedWhileRunning) : t.BasesClosedWhileRunning := by
  unfold State.BasesClosedWhileRunning
  rw [h.rack]
  exact i

theorem Kept.holdsOnce (h : Kept s t) (i : s.HoldsOnce) : t.HoldsOnce := by
  unfold State.HoldsOnce
  rw [telexSlots_eq]
  refine List.Sublist.nodup ?_ i
  rw [telexSlots_eq]
  exact ((h.telex.map _).append h.calendar).append h.priority

theorem Kept.commitInTime (h : Kept s t) (i : s.CommitInTime) : t.CommitInTime := by
  unfold State.CommitInTime
  rw [h.store]
  exact i

theorem Kept.sound (h : Kept s t) (i : s.Sound) : t.Sound :=
  ⟨h.clockInRange i.clock, h.memoryCanonical i.mem, h.withinCapacity i.capacity, h.faultsInRange i.faults,
    h.basesClosed i.bases, h.holdsOnce i.once, h.commitInTime i.commit⟩

/-! ## What the Rack Port does -/

theorem RackWork.clockInRange (h : RackWork s t) (i : s.ClockInRange) : t.ClockInRange := by
  unfold State.ClockInRange
  rw [h.clock]
  exact i

theorem RackWork.memoryCanonical (h : RackWork s t) (i : s.MemoryCanonical) : t.MemoryCanonical := h.mem i

theorem RackWork.withinCapacity (h : RackWork s t) (i : s.WithinCapacity) : t.WithinCapacity := by
  obtain ⟨pool, queues, calendar, priority⟩ := i
  refine ⟨?_, fun c => ?_, ?_, ?_⟩
  · have := congrArg List.length h.telex
    simp only [List.length_map] at this
    omega
  · have := queues c
    rw [State.queue_length] at this ⊢
    rw [h.telex]
    exact this
  · have := congrArg List.length h.calendar
    simp only [List.length_map] at this
    omega
  · have := congrArg List.length h.priority
    simp only [List.length_map] at this
    omega

theorem RackWork.chan (h : RackWork s t) (c : Chan) : t.chan c = s.chan c := by
  unfold State.chan
  rw [h.chans]

theorem RackWork.faultsInRange (h : RackWork s t) (i : s.FaultsInRange) : t.FaultsInRange := fun c => by
  rw [h.chan]
  exact i c

theorem RackWork.basesClosed (h : RackWork s t) (i : s.BasesClosedWhileRunning) : t.BasesClosedWhileRunning := by
  unfold State.BasesClosedWhileRunning
  rw [h.run, h.basesOpen]
  exact i

theorem RackWork.holdsOnce (h : RackWork s t) (i : s.HoldsOnce) : t.HoldsOnce := by
  unfold State.HoldsOnce
  rw [telexSlots_eq, h.telex, ← telexSlots_eq, h.calendar, h.priority]
  exact i

theorem RackWork.commitInTime (h : RackWork s t) (i : s.CommitInTime) : t.CommitInTime := by
  unfold State.CommitInTime
  rw [h.store]
  exact i

theorem RackWork.sound (h : RackWork s t) (i : s.Sound) : t.Sound :=
  ⟨h.clockInRange i.clock, h.memoryCanonical i.mem, h.withinCapacity i.capacity, h.faultsInRange i.faults,
    h.basesClosed i.bases, h.holdsOnce i.once, h.commitInTime i.commit⟩

/-! ## A power switch -/

/-- What holds of the effect and of the state as it was holds of the command. -/
theorem powered_holds {P : State → Prop} {f : State → State} (i : P s) (h : P s → P (f s)) : P (powered f s) := by
  unfold powered
  split
  · exact h i
  · exact i

end Sys2Proof.Machine
end

