-- ==== Sys2Proof/Laws/Event.lean ====
section
/-! SUPPORT. The end of an event: what it does where no pick is asked for, where nothing waits for the channel that asks
for one, and what the codes that begin do to a channel. -/

namespace Sys2Proof.Machine

set_option Elab.async false

variable {s t : State} {bus : Bus} {c : Chan}

/-! ## States by their channels -/

/-- Setting a channel to what it is changes nothing. -/
theorem State.setChan_same (h : f (s.chan c) = s.chan c) : s.setChan c f = s := by
  have e : s.chans.set c (f (s.chans.get c)) = s.chans := by
    refine Six.ext_get (fun d => ?_)
    by_cases x : d = c
    · subst x
      rw [Six.get_set_same]
      exact h
    · rw [Six.get_set_other _ _ x]
  unfold State.setChan
  rw [e]

/-- Two changes of one channel are one. -/
theorem State.setChan_setChan (s : State) (c : Chan) (f g : Channel → Channel) :
    (s.setChan c f).setChan c g = s.setChan c (fun ch => g (f ch)) := by
  have e : (s.chans.set c (f (s.chans.get c))).set c (g ((s.chans.set c (f (s.chans.get c))).get c))
      = s.chans.set c (g (f (s.chans.get c))) := by
    refine Six.ext_get (fun d => ?_)
    rw [Six.get_set_same]
    by_cases x : d = c
    · subst x
      rw [Six.get_set_same, Six.get_set_same]
    · rw [Six.get_set_other _ _ x, Six.get_set_other _ _ x, Six.get_set_other _ _ x]
  unfold State.setChan
  rw [e]

/-! ## The codes that begin -/

/-- A channel with no code due keeps its record. -/
theorem Channel.flush_idle {ch : Channel} (h : ch.codeDue = false) : ch.flush = ch := by
  simp [Channel.flush, h]

/-- A channel whose carrier is up begins its next code where one is due. -/
theorem Channel.flush_up {ch : Channel} (h : ch.codeDue = true) (k : ch.key = true) :
    ch.flush = Channel.putNext { ch with codeDue := false } := by
  have k' : Channel.key { ch with codeDue := false } = true := k
  simp only [Channel.flush, h, if_true, k']

/-- A channel whose carrier is down begins none. -/
theorem Channel.flush_down {ch : Channel} (h : ch.codeDue = true) (k : ch.key = false) :
    ch.flush = { ch with codeDue := false, tx := none, period := none } := by
  have k' : Channel.key { ch with codeDue := false } = false := k
  simp [Channel.flush, h, k']

/-- The codes due begin on every channel. -/
def flushAll (s : State) : State := eachChan (fun c s => s.setChan c Channel.flush) Chan.all s

@[simp] theorem flushAll_chan (s : State) (c : Chan) : (flushAll s).chan c = (s.chan c).flush := by
  unfold flushAll eachChan Chan.all
  simp only [List.foldl_cons, List.foldl_nil, State.chan_setChan]
  cases c <;> rfl

/-- Changing channels' records changes nothing else. -/
theorem eachChan_setChan (f : Channel → Channel) (cs : List Chan) (s : State) :
    ∃ x, eachChan (fun c s => s.setChan c f) cs s = { s with chans := x } := by
  induction cs generalizing s with
  | nil => exact ⟨s.chans, rfl⟩
  | cons c cs ih =>
    obtain ⟨x, e⟩ := ih (s.setChan c f)
    exact ⟨x, e⟩

theorem flushAll_eq (s : State) : flushAll s = { s with chans := Six.ofFn (fun c => (s.chan c).flush) } := by
  obtain ⟨x, e⟩ := eachChan_setChan Channel.flush Chan.all s
  have each : ∀ c, x.get c = (s.chan c).flush := by
    intro c
    have := flushAll_chan s c
    unfold flushAll at this
    rw [e] at this
    exact this
  have same : x = Six.ofFn (fun c => (s.chan c).flush) :=
    Six.ext_get (fun c => by rw [each c, Six.get_ofFn])
  unfold flushAll
  rw [e, same]

/-- With one channel due, the end of the event is that channel's next code. -/
theorem flushAll_one (h : ∀ d, d ≠ c → (s.chan d).codeDue = false) : flushAll s = s.setChan c Channel.flush := by
  have e : Six.ofFn (fun d => (s.chan d).flush) = s.chans.set c (s.chans.get c).flush := by
    refine Six.ext_get (fun d => ?_)
    rw [Six.get_ofFn]
    by_cases x : d = c
    · subst x
      rw [Six.get_set_same]
      rfl
    · rw [Six.get_set_other _ _ x]
      exact Channel.flush_idle (h d x)
  rw [flushAll_eq]
  unfold State.setChan
  rw [e]

theorem flushAll_calm (h : ∀ d, (s.chan d).codeDue = false) : flushAll s = s := by
  rw [flushAll_one (c := .c1) (fun d _ => h d)]
  exact State.setChan_same (Channel.flush_idle (h .c1))

/-! ## The picks -/

/-- No pick is asked for. -/
theorem picking_nil (h : ∀ d, (s.chan d).pick ≠ .now) : s.picking = [] := by
  unfold State.picking
  rw [List.filter_eq_nil_iff]
  intro d _
  simp [h d]

theorem runPicks_nil (h : s.picking = []) (n : Nat) : runPicks bus n s = s := by
  cases n with
  | zero => rfl
  | succ n => simp [runPicks, h]

/-- The end of an event that asks for no pick and in which no page comes: the codes due begin. -/
theorem settleEvent_noPick (h : ∀ d, (s.chan d).pick ≠ .now) (p : bus.prompt = []) :
    settleEvent bus s = flushAll s := by
  have e : settlePicks bus s = s := by
    unfold settlePicks
    rw [runPicks_nil (picking_nil h), p]
    exact runPicks_nil (picking_nil h) _
  show flushAll (settlePicks bus s) = _
  rw [e]

/-- An event that leaves the part between events changes nothing at its end. -/
theorem settleEvent_calm (h : s.Calm) (p : bus.prompt = []) : settleEvent bus s = s := by
  rw [settleEvent_noPick (fun d => (h d).1) p]
  exact flushAll_calm (fun d => (h d).2)

/-- An event whose one code due is a channel's. -/
theorem settleEvent_due (pick : ∀ d, (s.chan d).pick ≠ .now) (due : ∀ d, d ≠ c → (s.chan d).codeDue = false)
    (p : bus.prompt = []) : settleEvent bus s = s.setChan c Channel.flush := by
  rw [settleEvent_noPick pick p]
  exact flushAll_one due

/-- A channel that takes no pick has nothing of a trigger. -/
theorem trigger_none (h : s.takesNoPick c) : trigger c s = s := by
  unfold trigger
  split
  · rename_i e; exact absurd e h.1
  · rename_i e; exact absurd e h.2
  · rfl

theorem eachChan_same {f : Chan → State → State} {cs : List Chan} (h : ∀ c ∈ cs, f c s = s) : eachChan f cs s = s := by
  induction cs with
  | nil => rfl
  | cons c cs ih =>
    show eachChan f cs (f c s) = s
    rw [h c (List.mem_cons_self ..)]
    exact ih (fun d hd => h d (List.mem_cons_of_mem _ hd))

/-- A pick at a channel for which nothing waits takes nothing. -/
theorem pickItem_nothing (h : s.NothingFor c) : pickItem bus c s = s := by
  have marked : s.markedFollower c = none := by
    unfold State.markedFollower
    rw [h.mark]
  have traffic : pickTraffic bus c s = s := by
    unfold pickTraffic pickHead
    rw [h.urgent, h.due, h.queue]
  unfold pickItem
  rw [h.relay]
  show pickRest bus c s = s
  unfold pickRest
  rw [h.hold, h.retune, marked]
  split
  · rfl
  · exact traffic

/-- The pick asked for by a channel in IDLE for which nothing waits leaves it IDLE. -/
theorem makePick_idle (i : (s.chan c).state = .idle)
    (h : (s.setChan c (fun ch => { ch with pick := .none })).NothingFor c) :
    makePick bus c s = s.setChan c (fun ch => { ch with pick := .none }) := by
  have e : ((s.setChan c (fun ch => { ch with pick := .none })).chan c).state = .idle := by
    rw [State.chan_setChan_same]
    exact i
  unfold makePick
  simp only [e]
  exact pickItem_nothing h

/-- The end of an event in which one channel, in IDLE, asks for a pick, and nothing waits for it. -/
theorem settleEvent_idle (i : (s.chan c).state = .idle) (now : (s.chan c).pick = .now)
    (pick : ∀ d, d ≠ c → (s.chan d).pick ≠ .now) (due : ∀ d, (s.chan d).codeDue = false)
    (h : (s.setChan c (fun ch => { ch with pick := .none })).NothingFor c) (p : bus.prompt = []) :
    settleEvent bus s = s.setChan c (fun ch => { ch with pick := .none }) := by
  have calm : (s.setChan c (fun ch => { ch with pick := .none })).Calm := by
    intro d
    rw [State.chan_setChan]
    split
    · exact ⟨(fun x => by cases x), due c⟩
    · rename_i x
      exact ⟨pick d x, due d⟩
  have asked : ∃ rest, s.picking = c :: rest := by
    have mem : ∀ d, d ∈ s.picking ↔ d = c := by
      intro d
      unfold State.picking
      rw [List.mem_filter]
      constructor
      · intro x
        by_cases e : d = c
        · exact e
        · exact absurd (of_decide_eq_true x.2) (pick d e)
      · intro x
        subst x
        exact ⟨Chan.mem_all d, decide_eq_true now⟩
    cases e : s.picking with
    | nil => have := (mem c).2 rfl; rw [e] at this; cases this
    | cons d rest =>
      have : d = c := (mem d).1 (by rw [e]; exact List.mem_cons_self ..)
      exact ⟨rest, by rw [this]⟩
  obtain ⟨rest, e⟩ := asked
  have picked : settlePicks bus s = s.setChan c (fun ch => { ch with pick := .none }) := by
    have first : runPicks bus pickLimit s = s.setChan c (fun ch => { ch with pick := .none }) := by
      show runPicks bus (511 + 1) s = _
      unfold runPicks
      rw [e]
      dsimp only
      rw [makePick_idle i h]
      exact runPicks_nil (picking_nil (fun d => (calm d).1)) _
    unfold settlePicks
    rw [first, p]
    exact runPicks_nil (picking_nil (fun d => (calm d).1)) _
  show flushAll (settlePicks bus s) = _
  rw [picked]
  exact flushAll_calm (fun d => (calm d).2)

end Sys2Proof.Machine
end

