-- ==== Sys2Proof/Laws/Sweep.lean ====
section
/-! SUPPORT. The start of a sweep, by the rack's own counters: what each of its steps leaves, and what they come to. -/

namespace Sys2Proof.Machine

set_option Elab.async false

/-- The sweep mark, the sweep timer, the latch and the sweep count are the same in two states: what steps 1 to 3 of a
sweep leave as its start set them (R168 to R170, R176). -/
structure SweepMarks (s t : State) : Prop where
  sweep : t.rack.sweep = s.rack.sweep
  timer : t.rack.sweepTimer = s.rack.sweepTimer
  latch : t.rack.latch = s.rack.latch
  count : t.rack.sweepCount = s.rack.sweepCount

theorem SweepMarks.refl (s : State) : SweepMarks s s := ⟨rfl, rfl, rfl, rfl⟩

theorem SweepMarks.trans {s t u : State} (h : SweepMarks s t) (k : SweepMarks t u) : SweepMarks s u :=
  ⟨k.sweep.trans h.sweep, k.timer.trans h.timer, k.latch.trans h.latch, k.count.trans h.count⟩

theorem SweepMarks.foldl {α : Type} {f : State → α → State} (hf : ∀ s a, SweepMarks s (f s a)) (l : List α) :
    ∀ s, SweepMarks s (l.foldl f s) := by
  induction l with
  | nil => exact SweepMarks.refl
  | cons a l ih => exact fun s => (hf s a).trans (ih _)

theorem SweepMarks.abandonPass (bus : Bus) (s : State) : SweepMarks s (abandonPass bus s) := by
  refine SweepMarks.foldl (fun s k => ?_) _ _
  unfold abandonVisit abandonWrite
  split
  · exact ⟨rfl, rfl, rfl, rfl⟩
  · split
    · split <;> exact ⟨rfl, rfl, rfl, rfl⟩
    · exact ⟨rfl, rfl, rfl, rfl⟩

theorem SweepMarks.takesAgain (bus : Bus) (l : List (Nat × Nat)) (s : State) :
    SweepMarks s (l.foldl (takeAgain bus) s) := by
  refine SweepMarks.foldl (fun s k => ?_) _ _
  unfold takeAgain
  split <;> exact ⟨rfl, rfl, rfl, rfl⟩

theorem SweepMarks.postAnswers (bus : Bus) : ∀ (l : List Answer) (s : State), SweepMarks s (postAnswers bus l s)
  | [], s => SweepMarks.refl s
  | a :: l, s => by
    have check : SweepMarks s (checkExpected a s) := by
      unfold checkExpected State.raiseIf
      split <;> exact ⟨rfl, rfl, rfl, rfl⟩
    unfold Machine.postAnswers
    split
    · exact SweepMarks.refl s
    · split
      · exact ⟨rfl, rfl, rfl, rfl⟩
      · dsimp only
        split
        · exact check.trans ⟨rfl, rfl, rfl, rfl⟩
        · refine SweepMarks.trans (check.trans ?_) (SweepMarks.postAnswers bus l _)
          exact ⟨rfl, rfl, rfl, rfl⟩

theorem SweepMarks.writeProgress (bus : Bus) (s : State) : SweepMarks s (writeProgress bus s) := by
  refine SweepMarks.foldl (fun s k => ?_) _ _
  unfold progressVisit
  split
  · exact SweepMarks.refl s
  · split <;> exact ⟨rfl, rfl, rfl, rfl⟩

theorem SweepMarks.writeHeader (bus : Bus) (s : State) : SweepMarks s (writeHeader bus s) := by
  unfold Machine.writeHeader
  split <;> exact ⟨rfl, rfl, rfl, rfl⟩

@[simp] theorem writeHeader_held (bus : Bus) (s : State) : (writeHeader bus s).rack.held = 0 := rfl

/-- What the start of a sweep leaves in the rack's own marks and counters (R167, R170). -/
theorem startSweep_marks (bus : Bus) (s : State) :
    (startSweep bus s).rack.sweep = some 0 ∧ (startSweep bus s).rack.sweepTimer = none
      ∧ (startSweep bus s).rack.latch = false
      ∧ (startSweep bus s).rack.sweepCount = (s.rack.sweepCount + 1) % 65536
      ∧ (startSweep bus s).rack.held = 0 := by
  unfold startSweep
  dsimp only
  generalize started : ({ s with rack := { s.rack with
    sweepTimer := none, latch := false, sweep := some 0, sweepCount := (s.rack.sweepCount + 1) % 65536 } } : State) = s1
  have first := SweepMarks.abandonPass bus s1
  generalize abandonPass bus s1 = s2 at *
  have again := first.trans (SweepMarks.takesAgain bus s2.rack.pendingTakes s2)
  generalize s2.rack.pendingTakes.foldl (takeAgain bus) s2 = s3 at *
  have posted := again.trans (SweepMarks.postAnswers bus s3.rack.backlog s3)
  generalize postAnswers bus s3.rack.backlog s3 = s4 at *
  have all := (posted.trans (SweepMarks.writeProgress bus s4)).trans (SweepMarks.writeHeader bus _)
  subst started
  exact ⟨all.sweep, all.timer, all.latch, all.count, rfl⟩

/-! ## What stands before each command -/

theorem powered_on {f : State → State} {s : State} (h : s.power = true) : powered f s = f s := by simp [powered, h]

theorem State.hostStores_nil {bus : Bus} {s : State} (h : bus.writes = []) : s.hostStores bus = s := by
  simp [State.hostStores, h]

end Sys2Proof.Machine
end

