-- ==== Sys2Proof/Laws/Docket.lean ====
section
/-! SUPPORT. What the docket commands and the ends of items come to: the handover of a docket, the taking of one, its
answer, the entry of a channel to IDLE and the pick of a channel that has become free. -/

namespace Sys2Proof.Machine

set_option Elab.async false

variable {s t u : State} {bus : Bus} {c : Chan}

/-! ## States between events -/

/-- What leaves the channels alone leaves the part between events. -/
theorem State.Calm.of_chans (h : s.Calm) (e : t.chans = s.chans) : t.Calm := by
  intro d
  have k : t.chan d = s.chan d := by simp [State.chan, e]
  rw [k]
  exact h d

/-- A change of one channel that asks for no pick and begins no code leaves the part between events. -/
theorem State.Calm.setChan {f : Channel → Channel} (h : s.Calm)
    (k : (f (s.chan c)).pick ≠ .now ∧ (f (s.chan c)).codeDue = false) : (s.setChan c f).Calm := by
  intro d
  rw [State.chan_setChan]
  split
  · exact k
  · exact h d

/-! ## The handover of a docket (R171) -/

/-- What the visits of the intake pass leave: flags raised and nothing else; and the docket they stop at is of a slot
that its visit hands over. -/
theorem scan_leaves (bus : Bus) : ∀ (n slot : Nat) (s : State),
    ∃ events, (scan bus n slot s).1 = { s with rack := { s.rack with events := events } }
      ∧ ∀ k, (scan bus n slot s).2 = some k → visitOf bus (scan bus n slot s).1 k = .handed
  | 0, slot, s => ⟨s.rack.events, rfl, fun _ x => by cases x⟩
  | n + 1, slot, s => by
    unfold scan
    split
    · exact scan_leaves bus n (slot + 1) s
    · obtain ⟨events, e, k⟩ := scan_leaves bus n (slot + 1) (s.raise .busErr)
      exact ⟨events, by rw [e]; rfl, k⟩
    · obtain ⟨events, e, k⟩ := scan_leaves bus n (slot + 1) (s.raise .rackErr)
      exact ⟨events, by rw [e]; rfl, k⟩
    · rename_i x
      exact ⟨s.rack.events, rfl, fun k y => by cases y; exact x⟩

/-- The state at a handover: the part as the host's stores left it, with the flags of the visits raised and the pass
moved on; it does not hold the docket's slot, whose docket is FILED and of the command's kind. -/
theorem State.Hands.leaves {slot : Nat} {kind : Option Kind} (h : s.Hands bus slot kind u) :
    ∃ events, u = { s.hostStores bus with rack := { (s.hostStores bus).rack with
        events := events, sweep := some (slot + 1) } }
      ∧ u.holdsSlot slot = false ∧ u.slotState slot = 1 ∧ u.slotKind slot = kind := by
  obtain ⟨_, h⟩ := h
  unfold State.handedOver at h
  split at h
  · cases h
  · rename_i cursor _
    obtain ⟨events, e, k⟩ := scan_leaves bus (128 - cursor) cursor (s.hostStores bus)
    split at h
    · rename_i s1 slot1 found
      unfold scanFrom at found
      rw [found] at e k
      dsimp only at e k
      have visit := k slot1 rfl
      split at h
      · rename_i same
        cases h
        obtain ⟨rfl, same⟩ := same
        have held : s1.holdsSlot slot1 = false ∧ s1.slotState slot1 = 1 := by
          unfold visitOf at visit
          split at visit
          · cases visit
          · split at visit
            · cases visit
            · split at visit
              · cases visit
              · rename_i filed
                split at visit
                · cases visit
                · split at visit
                  · cases visit
                  · split at visit
                    · cases visit
                    · rename_i free
                      exact ⟨by simpa using free, by simpa using filed⟩
        exact ⟨events, by rw [e], held.1, held.2, same⟩
      · cases h
    · cases h

/-- A docket command at its handover is what its owner does, and the end of the event. -/
theorem intake_handed {slot : Nat} {kind : Option Kind} (owner : State → State) (h : s.Hands bus slot kind u) :
    powered (intake bus slot kind owner) s = settleEvent bus (owner u) := by
  rw [powered_on h.1]
  simp only [intake, h.2]

/-! ## The taking of a docket and its answer -/

/-- A bus without errors takes a docket as one that brings nothing does. -/
theorem takeDocket_ok (h : bus.errors = []) (slot : Nat) (s : State) :
    takeDocket bus slot s = takeDocket noBus slot s := by
  have a : busPart bus (isTake slot) = none := by simp [busPart, h]
  have b : busPart noBus (isTake slot) = none := by simp [busPart, noBus]
  simp only [takeDocket, a, b]

/-- Taking a docket advances the filing sequence counter and writes host memory, and changes nothing else. -/
theorem takeDocket_eq (slot : Nat) (s : State) : takeDocket noBus slot s =
    { s with rack := { s.rack with seq := nextSeq s.rack.seq }, mem := (takeDocket noBus slot s).mem } := by
  have b : busPart noBus (isTake slot) = none := by simp [busPart, noBus]
  simp only [takeDocket, b]
  rfl

@[simp] theorem takeDocket_rack (slot : Nat) (s : State) :
    (takeDocket noBus slot s).rack = { s.rack with seq := nextSeq s.rack.seq } := by rw [takeDocket_eq]

@[simp] theorem takeDocket_chan (slot : Nat) (s : State) (d : Chan) : (takeDocket noBus slot s).chan d = s.chan d := by
  rw [takeDocket_eq]
  rfl

@[simp] theorem takeDocket_chans (slot : Nat) (s : State) : (takeDocket noBus slot s).chans = s.chans := by
  rw [takeDocket_eq]

@[simp] theorem takeDocket_telex (slot : Nat) (s : State) : (takeDocket noBus slot s).telex = s.telex := by
  rw [takeDocket_eq]

@[simp] theorem takeDocket_calendar (slot : Nat) (s : State) : (takeDocket noBus slot s).calendar = s.calendar := by
  rw [takeDocket_eq]

@[simp] theorem takeDocket_priority (slot : Nat) (s : State) : (takeDocket noBus slot s).priority = s.priority := by
  rw [takeDocket_eq]

@[simp] theorem takeDocket_store (slot : Nat) (s : State) : (takeDocket noBus slot s).store = s.store := by
  rw [takeDocket_eq]

@[simp] theorem takeDocket_clock (slot : Nat) (s : State) : (takeDocket noBus slot s).clock = s.clock := by
  rw [takeDocket_eq]

theorem State.Calm.take {slot : Nat} (h : s.Calm) : (takeDocket noBus slot s).Calm :=
  h.of_chans (takeDocket_chans slot s)

/-- The answer an owner makes at intake, as the statements name it. -/
theorem answerAtIntake_eq (slot : Nat) (r : Result) (reason : Option Reason) (p : Progress) (s : State) :
    answerAtIntake slot r reason p s = s.answeredAtIntake slot r reason p := rfl

@[simp] theorem answeredAtIntake_chan (slot : Nat) (r : Result) (reason : Option Reason) (p : Progress) (s : State)
    (d : Chan) : (s.answeredAtIntake slot r reason p).chan d = s.chan d := rfl

@[simp] theorem answerDone_chan (slot : Nat) (s : State) (d : Chan) : (answerDone slot s).chan d = s.chan d := rfl

theorem State.Calm.done {slot : Nat} (h : s.Calm) : (answerDone slot s).Calm := h.of_chans rfl

/-- Answering a docket and changing a channel may be made in either order. -/
theorem answerDone_setChan (slot : Nat) (s : State) (f : Channel → Channel) :
    (answerDone slot s).setChan c f = answerDone slot (s.setChan c f) := rfl

/-- An event whose one effect is an answer at intake. -/
theorem settleEvent_answered (h : s.Calm) (p : bus.prompt = []) (slot : Nat) (r : Result) (reason : Option Reason)
    (pr : Progress) :
    settleEvent bus (s.answeredAtIntake slot r reason pr) = s.answeredAtIntake slot r reason pr :=
  settleEvent_calm (h.of_chans rfl) p

/-! ## What has nothing to do -/

theorem clearMark_none (h : (s.chan c).follower = none) : clearMark c s = s := by
  unfold clearMark
  rw [h]

theorem failRelays_none (h : s.pendingRelay c = none) : failRelays c s = s := by
  have e : s.priority.filter (fun e => e.relayOn c) = [] := by
    rw [List.filter_eq_nil_iff]
    exact fun e x => List.find?_eq_none.1 h e x
  unfold failRelays
  rw [e]
  rfl

theorem mem_maskChans {m : BitVec 8} : c ∈ maskChans m ↔ inMask m c = true := by
  unfold maskChans
  rw [List.mem_filter]
  exact ⟨fun h => h.2, fun h => ⟨Chan.mem_all c, h⟩⟩

/-- Nothing waits for a channel in a state that shows it the same items, requests and mark. -/
theorem State.NothingFor.of_same (h : s.NothingFor c) (prio : t.priority = s.priority)
    (cal : t.calendar = s.calendar) (telex : t.telex = s.telex) (clock : t.clock = s.clock)
    (hold : (t.chan c).pendingHold = (s.chan c).pendingHold)
    (retune : (t.chan c).pendingRetune = (s.chan c).pendingRetune)
    (mark : (t.chan c).follower = (s.chan c).follower) : t.NothingFor c := by
  refine ⟨?_, by rw [hold, h.hold], by rw [retune, h.retune], by rw [mark, h.mark], ?_, ?_, ?_⟩
  · have := h.relay
    unfold State.pendingRelay at *
    rw [prio]
    exact this
  · have := h.urgent
    unfold State.waitingUrgent at *
    rw [prio]
    exact this
  · have := h.due
    unfold State.dueEntry State.ordered State.orderedAt at *
    rw [cal, clock]
    exact this
  · have := h.queue
    unfold State.head State.queue at *
    rw [telex]
    exact this

/-! ## Entry to IDLE, and the freed channel -/

/-- A channel on its way to IDLE with a pick. -/
def Channel.idleAsking (ch : Channel) : Channel := { ch.enter .idle with pick := .now }

theorem enterIdle_ready (h : (s.chan c).readyView = true) : enterIdle c s = s.setChan c Channel.idleAsking := by
  have h' : (s.chans.get c).readyView = true := h
  unfold enterIdle State.setChan
  simp [h', Channel.idleAsking]

theorem enterIdle_unready (h : (s.chan c).readyView = false) : enterIdle c s = s.setChan c (Channel.enter .unready) := by
  have h' : (s.chans.get c).readyView = false := h
  unfold enterIdle State.setChan
  simp [h']

/-- An event that brings one channel to IDLE, where nothing waits for it. -/
theorem settleEvent_idleAsking (p : bus.prompt = [])
    (others : ∀ d, d ≠ c → (s.chan d).pick ≠ .now ∧ (s.chan d).codeDue = false)
    (h : (s.setChan c (Channel.enter .idle)).NothingFor c) :
    settleEvent bus (s.setChan c Channel.idleAsking) = s.setChan c (Channel.enter .idle) := by
  rw [settleEvent_idle (c := c) (by rw [State.chan_setChan_same]; rfl) (by rw [State.chan_setChan_same]; rfl) _ _ _ p,
    State.setChan_setChan]
  · rfl
  · intro d hd
    rw [State.chan_setChan_other _ _ hd]
    exact (others d hd).1
  · intro d
    rw [State.chan_setChan]
    split
    · rfl
    · rename_i hd
      exact (others d hd).2
  · rw [State.setChan_setChan]
    exact h

/-- Two changes that agree on a channel's record are one. -/
theorem State.setChan_congr {f g : Channel → Channel} (h : f (s.chan c) = g (s.chan c)) :
    s.setChan c f = s.setChan c g := by
  have h' : f (s.chans.get c) = g (s.chans.get c) := h
  unfold State.setChan
  rw [h']

/-- A code due in HANG is the idle code. -/
theorem Channel.flush_hang {ch : Channel} (k : ch.state = .hang) (d : ch.codeDue = true) :
    ch.flush = Channel.put .idle ch.item.idle { ch with codeDue := false } := by
  rw [Channel.flush_up d (by unfold Channel.key; simp [k])]
  unfold Channel.putNext
  simp [k]

/-- An event in which one channel becomes free, and nothing waits for it: it is in HANG and the idle code begins. -/
theorem settleEvent_freed (hang : (s.chan c).state = .hang) (now : (s.chan c).pick = .now)
    (due : (s.chan c).codeDue = true) (time : (s.chan c).item.hang ≠ 0)
    (others : ∀ d, d ≠ c → (s.chan d).pick ≠ .now ∧ (s.chan d).codeDue = false)
    (h : (s.setChan c (fun ch => { ch with pick := .none })).NothingFor c) (p : bus.prompt = []) :
    settleEvent bus s = s.setChan c (fun ch =>
      Channel.put .idle ch.item.idle { ch with pick := .none, codeDue := false }) := by
  have made : makePick bus c s = s.setChan c (fun ch => { ch with pick := .none }) := by
    have e : ((s.setChan c (fun ch => { ch with pick := .none })).chan c).state = .hang := by
      rw [State.chan_setChan_same]
      exact hang
    have k : ((s.setChan c (fun ch => { ch with pick := .none })).chan c).item.hang ≠ 0 := by
      rw [State.chan_setChan_same]
      exact time
    unfold makePick
    simp only [e]
    rw [pickItem_nothing h]
    unfold hangOut
    exact if_neg (fun x => k x.2)
  have asked : ∃ rest, s.picking = c :: rest := by
    have mem : ∀ d, d ∈ s.picking ↔ d = c := by
      intro d
      unfold State.picking
      rw [List.mem_filter]
      refine ⟨fun x => ?_, fun x => ?_⟩
      · by_cases e : d = c
        · exact e
        · exact absurd (of_decide_eq_true x.2) (others d e).1
      · subst x
        exact ⟨Chan.mem_all d, decide_eq_true now⟩
    cases e : s.picking with
    | nil =>
      have := (mem c).2 rfl
      rw [e] at this
      cases this
    | cons d rest =>
      have : d = c := (mem d).1 (by rw [e]; exact List.mem_cons_self ..)
      exact ⟨rest, by rw [this]⟩
  obtain ⟨rest, e⟩ := asked
  have none : ∀ d, ((s.setChan c (fun ch => { ch with pick := .none })).chan d).pick ≠ .now := by
    intro d
    rw [State.chan_setChan]
    split
    · exact fun x => by cases x
    · rename_i x
      exact (others d x).1
  have picked : settlePicks bus s = s.setChan c (fun ch => { ch with pick := .none }) := by
    have first : runPicks bus pickLimit s = s.setChan c (fun ch => { ch with pick := .none }) := by
      show runPicks bus (511 + 1) s = _
      unfold runPicks
      rw [e]
      dsimp only
      rw [made]
      exact runPicks_nil (picking_nil none) _
    unfold settlePicks
    rw [first, p]
    exact runPicks_nil (picking_nil none) _
  show flushAll (settlePicks bus s) = _
  rw [picked, flushAll_one (c := c), State.setChan_setChan]
  · exact State.setChan_congr (Channel.flush_hang (ch := { s.chan c with pick := .none }) hang due)
  · intro d hd
    rw [State.chan_setChan_other _ _ hd]
    exact (others d hd).2

end Sys2Proof.Machine
end

