-- ==== Sys2Proof/Laws/Items.lean ====
section
/-! SUPPORT. Items and entries by their slots: what is found after a change, and what the end of a telex item, of a
calendar entry and of an entry of the Priority List comes to where no pick follows. -/

namespace Sys2Proof.Machine

set_option Elab.async false

variable {s : State} {c : Chan} {slot k : Nat}

/-! ## Lists searched by slot -/

/-- A search by slot after a change, at one slot, that keeps slots. -/
theorem find_slot_map {α : Type} (key : α → Nat) (f : α → α) (hf : ∀ x, key (f x) = key x) (l : List α) (slot k : Nat) :
    (l.map (fun x => if key x = slot then f x else x)).find? (fun x => key x == k)
      = if k = slot then (l.find? (fun x => key x == k)).map f else l.find? (fun x => key x == k) := by
  induction l with
  | nil => split <;> rfl
  | cons x l ih =>
    rw [List.map_cons, List.find?_cons, List.find?_cons]
    by_cases a : key x = slot
    · rw [if_pos a, hf]
      by_cases b : key x = k
      · have e : (key x == k) = true := by simpa using b
        rw [e]
        simp only
        rw [if_pos (b.symm.trans a)]
        rfl
      · have e : (key x == k) = false := by simpa using b
        rw [e]
        exact ih
    · rw [if_neg a]
      by_cases b : key x = k
      · have e : (key x == k) = true := by simpa using b
        rw [e]
        simp only
        rw [if_neg (fun z => a (b.trans z))]
      · have e : (key x == k) = false := by simpa using b
        rw [e]
        exact ih

/-- A search by slot finds an item of that slot. -/
theorem find_slot_mem {α : Type} {key : α → Nat} {l : List α} {x : α} (h : l.find? (fun x => key x == k) = some x) :
    key x = k ∧ x ∈ l :=
  ⟨by simpa using List.find?_some h, List.mem_of_find?_eq_some h⟩

/-- What has left by its slot is found no more. -/
theorem find_slot_filter {α : Type} (key : α → Nat) (l : List α) (slot : Nat) :
    (l.filter (fun x => key x != slot)).find? (fun x => key x == slot) = none := by
  rw [List.find?_eq_none]
  intro x h e
  have := (List.mem_filter.1 h).2
  simp only [bne, e] at this
  cases this

/-- A change at one slot is gone with what leaves by that slot. -/
theorem filter_slot_map {α : Type} (key : α → Nat) (f : α → α) (hf : ∀ x, key (f x) = key x) (l : List α) (slot : Nat) :
    (l.map (fun x => if key x = slot then f x else x)).filter (fun x => key x != slot)
      = l.filter (fun x => key x != slot) := by
  induction l with
  | nil => rfl
  | cons x l ih =>
    rw [List.map_cons]
    by_cases a : key x = slot
    · rw [if_pos a, List.filter_cons_of_neg (by simp [hf, a]), List.filter_cons_of_neg (by simp [a]), ih]
    · rw [if_neg a, List.filter_cons_of_pos (by simp [a]), List.filter_cons_of_pos (by simp [a]), ih]

/-! ## Telex items -/

theorem State.telexAt_mem {i : TelexItem} (h : s.telexAt slot = some i) : i.slot = slot ∧ i ∈ s.telex :=
  find_slot_mem h

theorem State.telexAt_setTelex {f : TelexItem → TelexItem} (hf : ∀ i, (f i).slot = i.slot) :
    (s.setTelex slot f).telexAt k = if k = slot then (s.telexAt k).map f else s.telexAt k :=
  find_slot_map TelexItem.slot f hf s.telex slot k

/-- The item on a channel after a change of the items. -/
theorem State.telexOn_setTelex {f : TelexItem → TelexItem} (hf : ∀ i, (f i).slot = i.slot) {i : TelexItem}
    (h : s.telexOn c = some i) : (s.setTelex i.slot f).telexOn c = some (f i) := by
  have on : ((s.setTelex i.slot f).chan c).onAir = (s.chan c).onAir := rfl
  unfold State.telexOn at *
  rw [on]
  cases e : (s.chan c).onAir with
  | none => rw [e] at h; cases h
  | some a =>
    rw [e] at h
    dsimp only at h ⊢
    split at h
    · rename_i kind
      rw [if_pos kind, State.telexAt_setTelex hf, if_pos (State.telexAt_mem h).1.symm, h]
      rfl
    · cases h

/-- The item on a channel is the on-air item, by its slot. -/
theorem State.telexOn_onAir {i : TelexItem} (h : s.telexOn c = some i) :
    ∃ a, (s.chan c).onAir = some a ∧ a.kind = .telex ∧ a.slot = i.slot ∧ s.telexAt i.slot = some i := by
  unfold State.telexOn at h
  split at h
  · rename_i a e
    split at h
    · rename_i kind
      have := (State.telexAt_mem h).1
      exact ⟨a, e, kind, this.symm, by rw [this]; exact h⟩
    · cases h
  · cases h

/-- The end of a telex item, where no pick follows: its answer, its walk, its leaving, and its reading discarded. -/
theorem endTelex_quiet {i : TelexItem} {r : Result} (h : s.telexAt slot = some i)
    (quiet : s.takesNoPick i.channel ∨ (s.queue i.channel).filter (fun x => x.slot != slot) = []) :
    endTelex slot r s = ({ (answerTaken slot r i.progress true s) with
        telex := s.telex.filter (fun x => x.slot != slot) } : State).setChan i.channel (fun ch =>
      { ch with fetch :=
          let f := { (if ch.readsSlot slot then ch.fetch.discard else ch.fetch) with
            walks := ch.fetch.walks ++ [{ slot := slot, page := walkStart i ch.fetch, limit := 255 }] }
          if i.state = .queued then f else { f with resume := none } }) := by
  generalize hs : ({ (answerTaken slot r i.progress true s) with
    telex := s.telex.filter (fun x => x.slot != slot) } : State).setChan i.channel _ = s4
  have made : endTelex slot r s
      = if decide ((s.head i.channel).map TelexItem.slot = some slot) && (s4.head i.channel).isSome then
          trigger i.channel s4 else s4 := by
    unfold endTelex
    rw [h]
    dsimp only
    have s4e : ({ (requestWalk i.channel slot (walkStart i (s.chan i.channel).fetch) 255
          (answerTaken slot r i.progress true s)) with
        telex := (requestWalk i.channel slot (walkStart i (s.chan i.channel).fetch) 255
          (answerTaken slot r i.progress true s)).telex.filter (fun x => x.slot != slot) } : State).setChan i.channel
        (fun ch =>
          { ch with fetch :=
              if i.state = .queued then (if ch.readsSlot slot then ch.fetch.discard else ch.fetch)
              else { (if ch.readsSlot slot then ch.fetch.discard else ch.fetch) with resume := none } }) = s4 := by
      rw [← hs]
      refine Eq.trans (State.setChan_setChan ({ (answerTaken slot r i.progress true s) with
        telex := s.telex.filter (fun x => x.slot != slot) } : State) i.channel (fun ch =>
        { ch with fetch := { ch.fetch with walks := ch.fetch.walks
            ++ [{ slot := slot, page := walkStart i (s.chan i.channel).fetch, limit := 255 }] } }) _) ?_
      refine State.setChan_congr ?_
      have d : (({ (answerTaken slot r i.progress true s) with
        telex := s.telex.filter (fun x => x.slot != slot) } : State).chan i.channel) = s.chan i.channel := rfl
      rw [d]
      unfold Channel.readsSlot Fetcher.discard
      dsimp only
      split <;> split <;> rfl
    rw [s4e]
  rw [made]
  rcases quiet with q | q
  · have q' : s4.takesNoPick i.channel := by
      rw [← hs]
      unfold State.takesNoPick
      rw [State.chan_setChan_same]
      exact q
    rw [trigger_none q']
    split <;> rfl
  · have none : s4.head i.channel = none := by
      rw [← hs]
      unfold State.head State.queue
      show ((s.telex.filter (fun x => x.slot != slot)).filter (fun x => x.channel == i.channel)).head? = none
      rw [List.filter_filter]
      unfold State.queue at q
      rw [List.filter_filter] at q
      have e : (fun x : TelexItem => x.channel == i.channel && x.slot != slot)
          = (fun x => x.slot != slot && x.channel == i.channel) := by
        funext x
        exact Bool.and_comm ..
      rw [e, q]
      rfl
    rw [none]
    simp

/-! ## Entries of the calendar and of the Priority List -/

theorem State.entryAt_mem {e : CalEntry} (h : s.entryAt slot = some e) : e.slot = slot ∧ e ∈ s.calendar :=
  find_slot_mem h

theorem State.entryAt_setEntry {f : CalEntry → CalEntry} (hf : ∀ e, (f e).slot = e.slot) :
    (s.setEntry slot f).entryAt k = if k = slot then (s.entryAt k).map f else s.entryAt k :=
  find_slot_map CalEntry.slot f hf s.calendar slot k

theorem State.prioAt_mem {e : PrioEntry} (h : s.prioAt slot = some e) : e.slot = slot ∧ e ∈ s.priority :=
  find_slot_mem h

theorem State.prioAt_setPrio {f : PrioEntry → PrioEntry} (hf : ∀ e, (f e).slot = e.slot) :
    (s.setPrio slot f).prioAt k = if k = slot then (s.prioAt k).map f else s.prioAt k :=
  find_slot_map PrioEntry.slot f hf s.priority slot k

/-- The end of an entry of the Priority List: its answer, its walk and its leaving. -/
theorem endPriority_eq {e : PrioEntry} {r : Result} (h : s.prioAt slot = some e) :
    endPriority slot r s = ({ (answerTaken slot r (.priority e.out) true s) with
        priority := s.priority.filter (fun x => x.slot != slot) } : State).setChan (walkerOf e.mask) (fun ch =>
      { ch with fetch := { ch.fetch with
          walks := ch.fetch.walks ++ [{ slot := slot, page := e.firstPage, limit := 64 }] } }) := by
  unfold endPriority
  rw [h]
  rfl

/-! ## The end of an item on the air -/

/-- The end of a telex item on a channel for which nothing else waits: its answer, and the channel in HANG with the idle
code. -/
theorem endOnAir_freed {item : TelexItem} {r : Result} {v : State} {bus : Bus} (p : bus.prompt = [])
    (nb : v.NothingBehind c item) (others : ∀ d, d ≠ c → (v.chan d).pick ≠ .now ∧ (v.chan d).codeDue = false)
    (hang : (v.chan c).item.hang ≠ 0) :
    ∃ t, settleEvent bus (endOnAir c r v) = t ∧ (t.chan c).state = .hang
      ∧ (t.chan c).hang = some (v.chan c).item.hang ∧ (t.chan c).onAir = none ∧ (t.chan c).key = true
      ∧ (t.chan c).tx = some { kind := .idle, code := (v.chan c).item.idle }
      ∧ (t.chan c).call = (v.chan c).call.leave
      ∧ t.telex = v.telex.filter (fun x => x.slot != item.slot)
      ∧ t.rack = { v.rack with backlog := v.rack.backlog ++ [v.takenAnswer item.slot r item.progress true] }
      ∧ (∀ d, d ≠ c → t.chan d = v.chan d) := by
  obtain ⟨a, ea, ka, sa, ti⟩ := State.telexOn_onAir nb.onAir
  have ic : item.channel = c := by
    have : item ∈ v.queue c := by
      rw [nb.queue]
      exact List.mem_cons_self ..
    have := (List.mem_filter.1 this).2
    simpa using this
  have e1 : endOnAir c r v = becomeFree c (endTelex item.slot r v) := by
    unfold endOnAir; rw [ea, ← sa]
  rw [e1, endTelex_quiet ti (.inr (by rw [ic, nb.queue]; simp)), ic]
  unfold becomeFree
  generalize hw : ({ (answerTaken item.slot r item.progress true v) with
        telex := v.telex.filter (fun x => x.slot != item.slot) } : State) = w
  have wc : ∀ d, w.chan d = v.chan d := by intro d; subst hw; rfl
  rw [State.setChan_setChan]
  generalize hg : (fun ch : Channel => _) = g
  have g1 : (g (v.chan c)).state = .hang := by subst hg; rfl
  have g2 : (g (v.chan c)).pick = .now := by
    subst hg
    show (if (v.chan c).offWaits then _ else _) = _
    rw [nb.undisturbed.off]; rfl
  have g3 : (g (v.chan c)).codeDue = true := by subst hg; rfl
  have g4 : (g (v.chan c)).item = (v.chan c).item := by subst hg; rfl
  have g5 : (g (v.chan c)).hang = some (v.chan c).item.hang := by
    subst hg
    show (if (v.chan c).pendingHold.isSome then _ else _) = _
    rw [nb.hold]; rfl
  have g6 : (g (v.chan c)).onAir = none := by subst hg; rfl
  have g7 : (g (v.chan c)).pendingHold = none := by subst hg; exact nb.hold
  have g8 : (g (v.chan c)).pendingRetune = none := by subst hg; exact nb.retune
  have g9 : (g (v.chan c)).follower = none := by subst hg; exact nb.mark
  have g10 : (g (v.chan c)).call = (v.chan c).call.leave := by subst hg; rfl
  rw [settleEvent_freed (c := c)]
  · rw [State.setChan_setChan]
    refine ⟨_, rfl, ?_, ?_, ?_, ?_, ?_, ?_, ?_, ?_, ?_⟩
    · rw [State.chan_setChan_same, wc]; exact g1
    · rw [State.chan_setChan_same, wc]; exact g5
    · rw [State.chan_setChan_same, wc]; exact g6
    · rw [State.chan_setChan_same, wc]; unfold Channel.key Channel.put; simp [g1]
    · rw [State.chan_setChan_same, wc]; show some _ = _; rw [g4]
    · rw [State.chan_setChan_same, wc]; exact g10
    · subst hw; rfl
    · subst hw; rfl
    · intro d hd; rw [State.chan_setChan_other _ _ hd, wc]
  · rw [State.chan_setChan_same, wc]; exact g1
  · rw [State.chan_setChan_same, wc]; exact g2
  · rw [State.chan_setChan_same, wc]; exact g3
  · rw [State.chan_setChan_same, wc, g4]; exact hang
  · intro d hd; rw [State.chan_setChan_other _ _ hd, wc]; exact others d hd
  · rw [State.setChan_setChan]
    have q : w.queue c = [] := by
      subst hw
      have := nb.queue
      unfold State.queue at *
      show (v.telex.filter _).filter _ = _
      rw [List.filter_filter]
      have e : (fun x : TelexItem => x.channel == c && x.slot != item.slot)
          = (fun x => x.slot != item.slot && x.channel == c) := by
        funext x
        exact Bool.and_comm ..
      rw [e, ← List.filter_filter, this]; simp
    refine ⟨?_, ?_, ?_, ?_, ?_, ?_, ?_⟩
    · have := nb.undisturbed.relay; subst hw; exact this
    · rw [State.chan_setChan_same, wc]; exact g7
    · rw [State.chan_setChan_same, wc]; exact g8
    · rw [State.chan_setChan_same, wc]; exact g9
    · have := nb.urgent; subst hw; exact this
    · have := nb.due; subst hw; exact this
    · show ((w.queue c).head?) = none; rw [q]; rfl
  · exact p

end Sys2Proof.Machine
end

