-- ==== Sys2Proof/WellFormed.lean ====
section
/-! DEFINITION. Which commands are well formed: slots are 0 to 127 (0.7), host bytes lie in the 32-bit bus, page
numbers are 1 to 4095 (0.7). -/

namespace Sys2Proof

/-- A slot number of the rack (0.7: "Rack slots are numbered 0 to 127"). -/
def slotWf (slot : Nat) : Bool := decide (slot < 128)

/-- A page number that can hold text (0.7: "Pages are numbered 1 to 4095"). -/
def pageWf (n : Nat) : Bool := decide (1 ≤ n ∧ n ≤ 4095)

/-- The slots and pages an access names are in range. -/
def Access.wf : Access → Bool
  | .abandonRead slot => slotWf slot
  | .abandonWrite slot _ => slotWf slot
  | .takeAgain slot _ => slotWf slot
  | .post slot => slotWf slot
  | .answer slot _ => slotWf slot
  | .progress slot _ => slotWf slot
  | .header _ => true
  | .visit slot => slotWf slot
  | .take slot _ => slotWf slot
  | .page n => pageWf n
  | .mark n => pageWf n
  | .imageRead => true
  | .imageWrite _ => true

/-- Host bytes lie below 2^32 (the base registers are host byte addresses of 32 bits, chapter 10.2). -/
def Bus.wf (bus : Bus) : Bool :=
  bus.writes.all (fun cell => decide (cell.1 < 4294967296)) && bus.errors.all Access.wf

/-- Well-formedness of a command's operands. -/
def Instr.wf : Instr → Bool
  | .powerOn => true
  | .resetInput _ => true
  | .controlReset _ _ => true
  | .setRun _ bus => bus.wf
  | .clearRun => true
  | .sweep bus => bus.wf
  | .statusWrite _ => true
  | .maskWrite _ => true
  | .rackBaseWrite _ => true
  | .pageBaseWrite _ => true
  | .stationClockTick => true
  | .startTimeExpiry bus => bus.wf
  | .latestStartPassed slot bus => slotWf slot && bus.wf
  | .urgentLimitPassed slot => slotWf slot
  | .sweepTimerExpiry bus => bus.wf
  | .sweepEnd bus => bus.wf
  | .telex slot bus => slotWf slot && bus.wf
  | .bulletin slot bus => slotWf slot && bus.wf
  | .urgent slot bus => slotWf slot && bus.wf
  | .distress slot bus => slotWf slot && bus.wf
  | .withdraw slot bus => slotWf slot && bus.wf
  | .hold slot bus => slotWf slot && bus.wf
  | .release slot bus => slotWf slot && bus.wf
  | .retune slot bus => slotWf slot && bus.wf
  | .clearfault slot bus => slotWf slot && bus.wf
  | .quieten slot bus => slotWf slot && bus.wf
  | .setclock slot bus => slotWf slot && bus.wf
  | .snapshot slot bus => slotWf slot && bus.wf
  | .setup slot bus => slotWf slot && bus.wf
  | .setupExit slot bus => slotWf slot && bus.wf
  | .settingsRead slot bus => slotWf slot && bus.wf
  | .settingsWrite slot bus => slotWf slot && bus.wf
  | .commit slot bus => slotWf slot && bus.wf
  | .commitCompletion _ => true
  | .badKind slot bus => slotWf slot && bus.wf
  | .characterBoundary _ bus => bus.wf
  | .keyUpLeadExpiry _ bus => bus.wf
  | .hangExpiry _ bus => bus.wf
  | .tuneStrobeExpiry _ => true
  | .retuneLimitExpiry _ => true
  | .answerbackTimeout _ bus => bus.wf
  | .closingCheckTimeout _ bus => bus.wf
  | .rxdCodeArrival _ _ bus => bus.wf
  | .lineCheck _ _ _ _ bus => bus.wf
  | .quietPeriodExpiry _ bus => bus.wf
  | .lookaheadWaitThreshold _ => true
  | .starvationExpiry _ => true
  | .pageRereadTimerExpiry _ => true
  | .telexPageRead _ bus => bus.wf
  | .bulletinPageRead _ bus => bus.wf
  | .markingWalkEnd _ bus => bus.wf
  | .powerLoss => true

end Sys2Proof
end

