-- ==== Sys2Proof/Tests/Slice0.lean ====
section
/-! SUPPORT. Tests: the smoke tests of well-formedness, small tests of the commands with results worked out by hand from
the spec's own tables and worked sequences, and for each statement a state and operands that meet its hypotheses. -/

namespace Sys2Proof.Tests

set_option Elab.async false

open Sys2Proof Sys2Proof.Machine

/-! ## Well-formedness: an ill-formed term for each check -/

theorem test_wf_slot : slotWf 127 = true ∧ slotWf 128 = false := by decide

theorem test_wf_page : pageWf 0 = false ∧ pageWf 1 = true ∧ pageWf 4095 = true ∧ pageWf 4096 = false := by decide

theorem test_wf_access : Access.wf (.page 4096) = false ∧ Access.wf (.mark 0) = false
    ∧ Access.wf (.answer 128 0) = false ∧ Access.wf (.visit 127) = true := by decide

theorem test_wf_bus : Bus.wf { writes := [(4294967296, 1)], errors := [], prompt := [] } = false
    ∧ Bus.wf { writes := [], errors := [.take 128 0], prompt := [] } = false := by decide

theorem test_wf_command : Instr.wf (.telex 128 noBus) = false ∧ Instr.wf (.urgentLimitPassed 128) = false
    ∧ Instr.wf (.sweep { noBus with errors := [.page 0] }) = false
    ∧ Instr.wf (.latestStartPassed 127 noBus) = true := by
  decide

/-! ## Helpers -/

/-- The state a command leads to. -/
def after (i : Instr) (s : State) : State :=
  match exec i s with
  | .next t => t
  | .fault _ => s
  | .refused _ => s

/-- A channel with the factory item settings, in a state, with nothing in hand. -/
def calmChan (x : ChState) : Channel :=
  { Channel.blank 3 (ItemSettings.ofImage Image.factory .c1) LineSection.powerOn with state := x }

/-- The part with RUN set, every channel in one state. -/
def station (x : ChState) : State :=
  { State.reset with
    chans := Six.all (calmChan x)
    rack := { State.reset.rack with run := true, basesOpen := false, abandon := [] } }

/-- The part in a sweep, with a docket of a kind FILED in slot 0, whose body bytes start at address 96. -/
def docket (x : ChState) (kind : Byte) (body : List Host.Cell) : State :=
  { station x with
    mem := [(64, 1), (65, kind)] ++ body
    rack := { (station x).rack with sweep := some 0 } }

/-- The state at the handover of the docket of slot 0. -/
def handed (s : State) : State := { s with rack := { s.rack with sweep := some 1 } }

/-- The clock set to a time. -/
def atTime (v : Nat) (s : State) : State := { s with clock := { value := v, isSet := true } }

/-- A telex item for channel 2 from slot 9. -/
def item (x : TelexState) : TelexItem :=
  { slot := 9, channel := .c2, priority := false, state := x, callCode := [], answerback := [], firstPage := 100
    offset := 80, sent := 80, cuts := 0, attempts := 0, changed := false }

/-- The same item addressed to a ship. -/
def shipItem (x : TelexState) : TelexItem := { item x with callCode := [0x31, 0x32], answerback := [0x51, 0x52] }

/-- A calendar entry of slot 21 for channels 2 and 5, with a tolerance of 10 min and an interval of 2 h. -/
def entry (start : Nat) : CalEntry :=
  { slot := 21, seq := 1, series := 0, role := .single, partner := none, mask := 0x12, start := start
    phase := some .waiting, tolerance := 600000, r := 0, e := 0, interval := 7200000, requested := 3, done := 0
    left := 3, out := pendingOn 0x12, limitPassed := false, withdrawn := false, last := pendingOn 0x12
    sentCount := Six.all 0, sentTally := 0, unsentTally := 0, firstPage := 100, changed := false, arrived := false
    passing := false }

/-- An urgent bulletin or relay of slot 3 for channel 2. -/
def prio (distress : Bool) (x : ChanOutcome) : PrioEntry :=
  { slot := 3, distress := distress, mask := 2, firstPage := 100, out := (Six.all .notUsed).set .c2 x
    limit := if distress then none else some 5, limitPassed := false, withdrawn := false, changed := false
    passing := false }

/-- A channel that sends the item of slot 9, at a character boundary of its text. -/
def sendingText : Channel :=
  { calmChan .sending with
    onAir := some { kind := .telex, slot := 9, repetition := 0, resumed := false }, segment := some .text
    period := some 0, tx := some { kind := .text, code := 0x41 }, textPosition := 143 }

/-- The part with every channel HELD but channel 2. -/
def only (ch : Channel) : State := (station .held).setChan .c2 (fun _ => ch)

/-- The part with channel 2 as given and its queue the one item. -/
def airing (ch : Channel) (i : TelexItem) : State := { only ch with telex := [i] }

/-- Page 100 WRITTEN with two codes and END, at the page area's own addresses. -/
def pageHundred : List Host.Cell := [(25600, 1), (25601, 2), (25602, 255), (25603, 255), (25608, 0x41), (25609, 0x42)]

/-- A reading whose next line is settled. -/
def settledReading (final : Bool) : Reading :=
  { slot := 9, first := false, lineEnd := 0x0A, line := [0x43, 0x0A], copy := none, request := none
    condition := .settled final }

/-- A property of every channel from the six. -/
theorem each {P : Chan → Prop} (h : ∀ c ∈ Chan.all, P c) (c : Chan) : P c := h c (by cases c <;> decide)

/-! ## Small tests -/

/-- Chapter 1.3, the forward jump across midnight, and chapter 1.4. -/
theorem test_forward_distances : forward 85800000 1200000 = 1800000 ∧ forward 85800000 900000 = 1500000
    ∧ forward 21600000 19800000 = 84600000 ∧ forward 86390000 30000 = 40000 := by decide

/-- Chapter 1.3: E1 catches up with a MISSED repetition, E2 is DUE with 600,000 ms left. -/
theorem test_forward_jump_entry :
    ((jumpCalendar 85800000 1200000 { atTime 1200000 (station .held) with
        calendar := [{ entry 900000 with tolerance := 900000 }] }).calendar.map
          (fun e => (e.phase, e.r, e.e))) = [(some .due, 600000, 300000)] := by decide

theorem test_forward_jump_missed :
    ((jumpCalendar 85800000 1200000 { atTime 1200000 (station .held) with calendar := [entry 86100000] }).calendar.map
      (fun e => (e.phase, e.done, e.left, e.start, e.unsentTally))) = [(some .waiting, 1, 2, 6900000, 2)] := by decide

/-- Chapter 1.4: A is 10,000 and a queued item needs 17,250. -/
theorem test_available_time :
    (atTime 86390000 { station .idle with calendar := [{ entry 30000 with mask := 4, out := pendingOn 4 }] }).available
        .c3 = some 10000
      ∧ startNeed Image.factory .c3 false
        { item .queued with callCode := List.replicate 6 0 } false 40 false = 17250 := by
  decide

/-- Chapter 3.2: a resumed item with a first line of 50 codes needs 20,100 from IDLE, and 18,650 final from HANG. -/
theorem test_resumed_need :
    startNeed Image.factory .c3 false { item .queued with callCode := List.replicate 6 0 } true 50 false = 20100
      ∧ startNeed Image.factory .c3 true { item .queued with callCode := List.replicate 6 0 } true 50 true = 18650 := by
  decide

/-- Chapter 1.4: the continuation tests of 20 and of 30 codes. -/
theorem test_continue_need : continueNeed (calmChan .sending).item 20 false = 4800
    ∧ continueNeed (calmChan .sending).item 30 false = 6300 := by decide

/-- Chapter 10.2: a telex answer DONE of slot 5, byte by byte. -/
theorem test_answer_bytes :
    answerCells .done none 0x01020304 false none (.telex 726 726 1 2) =
      [(2, 1), (3, 0), (12, 4), (13, 3), (14, 2), (15, 1), (16, 0), (68, 0xD6), (69, 2), (70, 0), (71, 0), (72, 0xD6),
        (73, 2), (74, 0), (75, 0), (76, 1), (77, 2), (0, 3)] := by decide

set_option maxRecDepth 4096 in
/-- Chapter 11.2: the checksum of the default column, summed by hand. -/
theorem test_factory_checksum : Image.factory.checksum = 58786 := by decide

/-- R182: no default lies outside its range. -/
theorem test_factory_clamped : clampedCount Image.factory.bytes = 0 := by decide

/-- R45: a line ends with its line-end code. -/
theorem test_line : takeLine 0x0A [0x41, 0x0A, 0x42] [] = ([0x41, 0x0A], [0x42], true) := by decide

/-- R4, R166. -/
theorem test_status_write : (after (.statusWrite 0x1) { station .idle with
    rack := { (station .idle).rack with events := 0x3 } }).rack.events = 0x2 := by decide

/-- R166: bits not named ignore writes. -/
theorem test_mask_write : (after (.maskWrite 0xFFFFFFFF) (station .idle)).rack.mask = 0x3FF := by decide

/-- R165. -/
theorem test_base_closed : (after (.rackBaseWrite 0x1000) (station .idle)).rack.rackBase = 0
    ∧ (after (.rackBaseWrite 0x1000) State.reset).rack.rackBase = 0x1000 := by decide

/-- R1: the wrap at midnight. -/
theorem test_tick_wraps : (after .stationClockTick (atTime 86399999 (station .idle))).clock.value = 0 := by decide

/-- R13: r of a withdrawn DUE entry goes on falling, and its limit does not pass (R118). -/
theorem test_tick_withdrawn :
    (after .stationClockTick { station .held with calendar := [{ entry 0 with
      phase := some .due, r := 7, withdrawn := true }, { entry 0 with phase := some .due, withdrawn := true }] }).calendar.map
      (fun e => (e.r, e.passing)) = [(6, false), (0, false)] := by decide

/-- R33: a HOLD of channel 2 in IDLE; R34. -/
theorem test_hold_idle : ((after (.hold 0 noBus) (docket .idle 6 [(96, 2)])).chan .c2).state = .held
    ∧ ((after (.hold 0 noBus) (docket .idle 6 [(96, 2)])).chan .c3).state = .idle := by decide

/-- R158 and the worked sequence of chapter 9.7: CLEARFAULT of channel 4 clears the count. -/
theorem test_clearfault :
    let t := after (.clearfault 0 noBus) ((docket .held 9 [(96, 4)]).setChan .c4 (fun _ =>
      { calmChan .lockedOut with line := { LineSection.powerOn with
        faults := 3, quiet := some 2050, alarm := ⟨some false, 9⟩ } }))
    (t.chan .c4).state = .idle ∧ (t.chan .c4).line.faults = 0 ∧ (t.chan .c4).line.quiet = none := by decide

/-- R159 and the worked sequence of chapter 9.7: QUIETEN of channel 4 leaves 2000 of 8850 ms. -/
theorem test_quieten :
    ((after (.quieten 0 noBus) ((docket .held 10 [(96, 4)]).setChan .c4 (fun _ =>
      { calmChan .faulted with line := { LineSection.powerOn with quiet := some 8850 } }))).chan .c4).line.quiet
        = some 2000 := by decide

/-- R5, R6: a SETCLOCK's own answer carries the new time. -/
theorem test_setclock :
    ((after (.setclock 0 noBus) (docket .held 11 [(96, 0x80), (97, 0x4F), (98, 0x12)])).rack.backlog.map
      (fun a => (a.time, a.noclock))) = [(1200000, false)] := by decide

/-- R172 and the worked sequence of chapter 10.5: kind code 63 is refused with BAD_KIND, and the counter advances. -/
theorem test_bad_kind :
    let t := after (.badKind 0 noBus) (docket .held 63 [])
    t.rack.backlog.map (fun a => (a.result, a.reason)) = [(.refused, some .badKind)] ∧ t.rack.seq = 2 := by decide

/-- R68, R71: a telex for channel 2 is queued. -/
theorem test_telex_queued :
    let t := after (.telex 0 noBus) (docket .held 1 [(96, 2), (100, 100)])
    t.telex.map (fun i => (i.slot, i.channel, i.firstPage)) = [(0, .c2, 100)] ∧ t.slotState 0 = 2 := by decide

/-- R16, R64: the next code of a line follows. -/
theorem test_boundary_text :
    let t := after (.characterBoundary .c2 noBus) (airing { sendingText with rest := [0x42, 0x0A] } (item .onAir))
    (t.chan .c2).tx = some { kind := .text, code := 0x42 } ∧ (t.chan .c2).period = some 150
      ∧ (t.telexAt 9).map TelexItem.sent = some 81 := by decide

/-- R52 to R55: a due bulletin cuts at the break point, and the first code of "BRK FOR BUL" begins. -/
theorem test_break_point_cut :
    let t := after (.characterBoundary .c2 noBus)
      { airing sendingText (item .onAir) with calendar := [{ entry 0 with phase := some .due }] }
    (t.chan .c2).segment = some .cutNotice ∧ (t.chan .c2).tx = some { kind := .notice, code := 0x42 }
      ∧ (t.telexAt 9).map TelexItem.offset = some 144 := by decide

/-- R25: a channel's lead expires with the first line of a collective item. -/
theorem test_lead_expiry :
    ((after (.keyUpLeadExpiry .c2 noBus) (airing { calmChan .keying with
      onAir := some { kind := .telex, slot := 9, repetition := 0, resumed := false }, lead := some 0
      fetch := { Fetcher.reset with reading := some (settledReading true) } } (item .onAir))).chan .c2).tx
        = some { kind := .text, code := 0x43 } := by decide

/-- R26. -/
theorem test_hang_expiry :
    ((after (.hangExpiry .c2 noBus) (only { calmChan .hang with hang := some 0, period := some 40 })).chan .c2).state
      = .idle := by decide

/-- R40 and R155: a failed retune is a TUNE_FAIL onset, counted. -/
theorem test_retune_fails :
    let t := after (.retuneLimitExpiry .c2) (only { calmChan .retuning with retuneLimit := some 0, retune := some 7 })
    (t.chan .c2).line.faults = 1 ∧ (t.chan .c2).line.lastKind = .tuneFail ∧ (t.chan .c2).state = .faulted
      ∧ t.rack.backlog.map (fun a => (a.slot, a.result)) = [(7, .failed)] := by decide

/-- Chapter 9.7: the fifth ALARM check is the onset. -/
theorem test_alarm_onset :
    let t := after (.lineCheck .c4 true true false noBus) ((station .held).setChan .c4 (fun _ =>
      { calmChan .idle with line := { LineSection.powerOn with check := some 0, alarm := ⟨some true, 4⟩ } }))
    (t.chan .c4).state = .faulted ∧ (t.chan .c4).line.faults = 1 ∧ (t.chan .c4).line.quiet = some 10000 := by decide

/-- R147: the marking walk marks a one-page chain SENT, and the answer waits no more. -/
theorem test_marking_walk :
    let t := after (.markingWalkEnd .c2 noBus) { only { calmChan .held with
      fetch := { Fetcher.reset with walks := [{ slot := 9, page := 100, limit := 255 }] } } with mem := pageHundred }
    Mem.read t.mem 25600 = 2 ∧ (t.chan .c2).fetch.walks = [] := by decide

/-- R87, R88: the two codes of the expected answerback match after a code of carriage control. -/
theorem test_answerback : answerbackMatches [0x0D, 0x51, 0x52] [0x51, 0x52] = true
    ∧ answerbackMatches [0x51, 0x52, 0x0D] [0x51, 0x52] = false := by decide

/-- R163: reset; R42: every channel retunes to its start preset. -/
theorem test_reset : (State.reset.chan .c6).state = .retuning ∧ State.reset.clock.isSet = false
    ∧ State.reset.rack.mask = 0x2BD ∧ State.reset.status = 0x100 := by decide

/-- Chapter 10.5, step 1 of the worked sequence: two answers are posted, and posting stops at the one that waits. -/
theorem test_posting_stops :
    let answer (slot : Nat) (walk : Bool) : Answer :=
      { slot := slot, result := .done, reason := none, time := 43200000, noclock := false, progress := .none
        expected := .taken, seq := none, walk := walk }
    let t := postAnswers noBus [answer 5 false, answer 9 false, answer 20 true, answer 31 false]
      { station .held with rack := { (station .held).rack with
        posted := 881, backlog := [answer 5 false, answer 9 false, answer 20 true, answer 31 false] } }
    t.rack.posted = 883 ∧ t.rack.backlog.map Answer.slot = [20, 31] := by decide

/-! ## Witnesses: how they are met -/

theorem calmBy {s : State} (h : ∀ c ∈ Chan.all, (s.chan c).pick ≠ .now ∧ (s.chan c).codeDue = false) : s.Calm := each h

theorem noPickBy {s : State} (h : ∀ c ∈ Chan.all, (s.chan c).state ≠ .idle ∧ (s.chan c).state ≠ .hang) (c : Chan) :
    s.takesNoPick c := each h c

theorem nothingBy {s : State} {c : Chan} (h : s.pendingRelay c = none ∧ (s.chan c).pendingHold = none
    ∧ (s.chan c).pendingRetune = none ∧ (s.chan c).follower = none ∧ s.waitingUrgent c = none ∧ s.dueEntry c = none
    ∧ s.head c = none) : s.NothingFor c :=
  ⟨h.1, h.2.1, h.2.2.1, h.2.2.2.1, h.2.2.2.2.1, h.2.2.2.2.2.1, h.2.2.2.2.2.2⟩

theorem undisturbedBy {s : State} {c : Chan} (h : (s.chan c).offWaits = false ∧ (s.chan c).stopAtBoundary = false
    ∧ s.pendingRelay c = none) : s.Undisturbed c := ⟨h.1, h.2.1, h.2.2⟩

theorem behindBy {s : State} {c : Chan} {i : TelexItem} (u : (s.chan c).offWaits = false
    ∧ (s.chan c).stopAtBoundary = false ∧ s.pendingRelay c = none) (h : (s.chan c).pendingHold = none
    ∧ (s.chan c).pendingRetune = none ∧ (s.chan c).follower = none ∧ s.waitingUrgent c = none ∧ s.dueEntry c = none
    ∧ s.queue c = [i] ∧ s.telexOn c = some i) : s.NothingBehind c i :=
  ⟨undisturbedBy u, h.1, h.2.1, h.2.2.1, h.2.2.2.1, h.2.2.2.2.1, h.2.2.2.2.2.1, h.2.2.2.2.2.2⟩

/-- What every statement of a docket asks: the docket of slot 0 is handed over, in a state between events. -/
def Docketed (s : State) (kind : Option Kind) : Prop := s.Hands noBus 0 kind (handed s) ∧ (handed s).Calm

/-! ## Witnesses: the queue, the registers, power and the clock -/

theorem witness_step : ({ station .idle with pending := [.clearRun] } : State).pending = .clearRun :: []
    ∧ (station .idle).pending = [] := by decide

theorem witness_registers : (station .idle).power = true ∧ (station .idle).rack.events.getLsbD Flag.noClock.bit = false
    ∧ (station .idle).rack.basesOpen = false ∧ State.reset.power = true ∧ State.reset.rack.basesOpen = true := by decide

/-- The part in a sweep that has one slot left to visit, slot 127, which is EMPTY. -/
def lastVisit (run latch : Bool) : State :=
  { station .held with rack := { (station .held).rack with run := run, latch := latch, sweep := some 127 } }

theorem witness_run : State.reset.rack.run = false ∧ State.reset.rack.sweep = none
    ∧ (lastVisit false false).rack.run = false ∧ (lastVisit false false).rack.sweep.isSome = true
    ∧ (station .idle).rack.run = true ∧ (station .idle).rack.sweep = none
    ∧ (lastVisit true false).rack.run = true ∧ (lastVisit true false).rack.sweep.isSome = true := by decide

theorem witness_sweep_end (run latch : Bool) : (lastVisit run latch).power = true
    ∧ (lastVisit run latch).rack.sweep = some 127 ∧ (lastVisit run latch).rack.run = run
    ∧ (lastVisit run latch).rack.latch = latch
    ∧ scanFrom noBus 127 (lastVisit run latch) = (lastVisit run latch, none) := by
  cases run <;> cases latch <;> exact ⟨rfl, rfl, rfl, rfl, rfl⟩

theorem witness_sweep_timer : ({ station .held with
    rack := { (station .held).rack with sweepTimer := some 0 } } : State).rack.sweepTimer = some 0 := rfl

/-- The part between sweeps with one answer in its backlog. -/
def answered (walk : Bool) : State :=
  { station .held with rack := { (station .held).rack with
    backlog := [(station .held).takenAnswer 127 .done .none walk] } }

theorem witness_posting (walk : Bool) : (answered walk).power = true ∧ Mem.wf (answered walk).mem = true
    ∧ (answered walk).rack.run = true ∧ (answered walk).rack.sweep = none ∧ (answered walk).rack.abandon = []
    ∧ (answered walk).rack.pendingTakes = []
    ∧ (answered walk).rack.backlog = [(station .held).takenAnswer 127 .done .none walk]
    ∧ ((station .held).takenAnswer 127 .done .none walk).walk = walk
    ∧ (station .held).rack.backlog = [] := by
  cases walk <;> exact ⟨rfl, rfl, rfl, rfl, rfl, rfl, rfl, rfl, rfl⟩

/-- The card without power, its stored image with the given checksum. -/
def dark (checksum : BitVec 16) : State :=
  { State.reset with power := false, store := { State.reset.store with
      stored := { image := Image.factory, checksum := checksum } } }

theorem witness_power_on_good (k : BitVec 16) (h : k = Image.factory.checksum) : (dark k).power = false
    ∧ (dark k).store.commit = none ∧ (dark k).store.stored.checksum = (dark k).store.stored.image.checksum :=
  ⟨rfl, rfl, h⟩

theorem witness_power_on_bad : (dark 0).power = false ∧ (dark 0).store.commit = none
    ∧ (dark 0).store.stored.checksum ≠ (dark 0).store.stored.image.checksum := by
  refine ⟨rfl, rfl, ?_⟩
  show (0 : BitVec 16) ≠ Image.factory.checksum
  rw [test_factory_checksum]
  decide

/-- The part while a COMMIT is in progress. -/
def committing (resetWaits : Bool) : State :=
  { station .idle with store := { State.reset.store with
      commit := some { slot := 1, copy := Image.factory, elapsed := 1 }, resetWaits := resetWaits } }

theorem witness_commit (w : Bool) : (committing w).power = true
    ∧ (committing w).store.commit = some { slot := 1, copy := Image.factory, elapsed := 1 }
    ∧ (committing w).store.resetWaits = w ∧ (committing w).store.commit.isSome = true
    ∧ (committing w).resetPin = false := ⟨rfl, rfl, rfl, rfl, rfl⟩

theorem witness_part_reset : State.reset.power = true ∧ State.reset.store.commit = none ∧ State.reset.resetPin = false
    ∧ ({ State.reset with resetPin := true } : State).resetPin = true := ⟨rfl, rfl, rfl, rfl⟩

theorem witness_tick : (atTime 86399998 (station .idle)).clock.value < 86399999
    ∧ (atTime 86399999 (station .idle)).clock.value = 86399999 ∧ (station .idle).power = true := by decide

theorem witness_distance : (0 : Nat) < 86400000 ∧ (86399999 : Nat) < 86400000 ∧ (0 : Nat) ≤ 86399999
    ∧ ¬ ((86399999 : Nat) ≤ 0) ∧ (0 : Nat) ≠ 86399999 := by decide

theorem witness_jump : (43199999 : Nat) < 43200000 ∧ (43200000 : Nat) ≤ 43200000
    ∧ (86399999 : Nat) ≤ 86399999 := by decide

/-! ## Witnesses: the calendar and the Priority List -/

theorem witness_start_time :
    let s : State := { station .held with calendar := [{ entry 0 with arrived := true }, { entry 9 with slot := 22 }] }
    s.power = true ∧ s.Calm ∧ (∀ c, s.takesNoPick c) ∧ (s.calendar.map CalEntry.slot).Nodup :=
  ⟨rfl, calmBy (by decide), noPickBy (by decide), by decide⟩

/-- A DUE entry of slot 21 whose limit's tick has come, PENDING on channel 2 and with an outcome on channel 5. -/
def limitEntry (x : ChanOutcome) (left : Nat) : CalEntry :=
  { entry 0 with phase := some .due, passing := true, left := left, out := (pendingOn 0x12).set .c5 x }

theorem witness_latest_start :
    let e := limitEntry .onAir 3
    let s : State := { station .held with calendar := [e] }
    s.power = true ∧ s.Calm ∧ s.entryAt 21 = some e ∧ e.slot = 21 ∧ e.role = .single ∧ e.phase = some .due
      ∧ e.limitPassed = false ∧ e.withdrawn = false ∧ e.passing = true
      ∧ (∃ c, inMask e.mask c = true ∧ e.out.get c = .onAir) ∧ (∃ c, inMask e.mask c = true ∧ e.out.get c = .pending) :=
  ⟨rfl, calmBy (by decide), rfl, rfl, rfl, rfl, rfl, rfl, rfl, ⟨.c5, rfl, rfl⟩, ⟨.c2, rfl, rfl⟩⟩

theorem witness_latest_start_settled : ¬ ∃ c, inMask (limitEntry .onAir 3).mask c = true
    ∧ ({ limitEntry .onAir 3 with
      out := (Six.all ChanOutcome.notUsed).set .c5 .onAir } : CalEntry).out.get c = .pending := by
  rintro ⟨c, _, h⟩
  cases c <;> exact absurd h (by decide)

theorem witness_last_repetition (x : ChanOutcome) (h : x = .sent ∨ x = .failed) :
    let e := limitEntry x 1
    let s : State := { station .held with calendar := [e] }
    s.power = true ∧ s.Calm ∧ (∀ c, s.takesNoPick c) ∧ s.entryAt 21 = some e ∧ e.slot = 21 ∧ e.role = .single
      ∧ e.phase = some .due ∧ e.limitPassed = false ∧ e.withdrawn = false ∧ e.passing = true ∧ e.left ≤ 1
      ∧ (∀ c, inMask e.mask c = true → e.out.get c ≠ .onAir)
      ∧ e.sentTally + e.tally (fun o => decide (o = .sent)) = (if x = .sent then 1 else 0) := by
  rcases h with rfl | rfl
  · exact ⟨rfl, calmBy (by decide), noPickBy (by decide), rfl, rfl, rfl, rfl, rfl, rfl, rfl, by decide,
      fun c _ => by cases c <;> decide, by decide⟩
  · exact ⟨rfl, calmBy (by decide), noPickBy (by decide), rfl, rfl, rfl, rfl, rfl, rfl, rfl, by decide,
      fun c _ => by cases c <;> decide, by decide⟩

theorem witness_urgent_limit :
    let e : PrioEntry :=
      { prio false .onAir with mask := 6, out := (prio false .onAir).out.set .c3 .pending, passing := true }
    let s : State := { station .held with priority := [e] }
    s.power = true ∧ s.prioAt 3 = some e ∧ e.slot = 3 ∧ e.distress = false ∧ e.withdrawn = false
      ∧ e.limit.isSome = true ∧ e.passing = true ∧ (∃ c, e.out.get c = .onAir) ∧ (∃ c, e.out.get c = .pending) :=
  ⟨rfl, rfl, rfl, rfl, rfl, rfl, rfl, ⟨.c2, rfl⟩, ⟨.c3, rfl⟩⟩

theorem witness_urgent_limit_settled : ¬ ∃ c, (prio false .onAir).out.get c = .pending := by
  rintro ⟨c, h⟩
  cases c <;> exact absurd h (by decide)

/-! ## Witnesses: dockets -/

theorem witness_taking : (127 : Nat) < 128 ∧ State.reset.MemoryCanonical
    ∧ ({ State.reset with rack := { State.reset.rack with seq := 4294967295 } } : State).rack.seq = 4294967295 :=
  ⟨by decide, rfl, rfl⟩

/-- A TELEX docket for channel 2 whose chain starts at page 100. -/
def telexDocket (x : ChState) : State := docket x 1 [(96, 2), (100, 100)]

theorem witness_telex : Docketed (telexDocket .held) (some .telex) ∧ (handed (telexDocket .held)).takesNoPick .c2
    ∧ telexRefusal (handed (telexDocket .held)) ((handed (telexDocket .held)).telexDocket 0) = none
    ∧ Chan.ofNumber ((handed (telexDocket .held)).slotField 0 32 1) = some .c2
    ∧ (handed (telexDocket .held)).telex.length < 64 ∧ ((handed (telexDocket .held)).queue .c2).length < 16 :=
  ⟨⟨⟨rfl, rfl⟩, calmBy (by decide)⟩, noPickBy (by decide) .c2, by decide, by decide, by decide, by decide⟩

/-- Room for the last item: 15 items of channel 2 in the pool. -/
theorem witness_telex_last : (({ telexDocket .held with telex := List.replicate 15 (item .queued) } : State).queue
    .c2).length = 15 := by decide

theorem witness_held_telex :
    let s : State := { telexDocket .held with telex := List.replicate 16 (item .queued) }
    Docketed s (some .telex) ∧ Chan.ofNumber ((handed s).slotField 0 32 1) = some .c2
      ∧ telexRefusal (handed s) ((handed s).telexDocket 0) = none ∧ 16 ≤ ((handed s).queue .c2).length :=
  ⟨⟨⟨rfl, rfl⟩, calmBy (by decide)⟩, by decide, by decide, by decide⟩

theorem witness_held_retune :
    let s := docket .retuning 8 [(96, 2), (97, 31)]
    Docketed s (some .retune) ∧ Chan.ofNumber ((handed s).slotField 0 32 1) = some .c2
      ∧ (handed s).slotField 0 33 1 ≤ 31 ∧ ((handed s).chan .c2).offWaits = false
      ∧ ((handed s).chan .c2).state = .retuning :=
  ⟨⟨⟨rfl, rfl⟩, calmBy (by decide)⟩, by decide, by decide, by decide, by decide⟩

/-- A BULLETIN docket for channels 2 and 5 at 07:00, with a tolerance of 10 min, an interval of 120 min, 3 repetitions
and no partner, filed at a time (chapter 6.4); its chain is page 100. -/
def bulletinAt (time : Nat) : State :=
  atTime time (docket .held 2 ([(97, 0x12), (98, 10), (99, 3), (100, 120), (102, 100), (104, 0x80), (105, 0x85),
    (106, 0x80), (107, 1), (108, 255)] ++ pageHundred))

theorem witness_bulletin (time : Nat) (h : time = 24000000 ∨ time = 25800000 ∨ time = 25800001) :
    let s := bulletinAt time
    Docketed s (some .bulletin) ∧ bulletinRefusal (handed s) ((handed s).bulletinDocket 0) = none
      ∧ (handed s).calendar.length < 48
      ∧ intakeWalk noBus (handed s) 64 ((handed s).bulletinDocket 0).firstPage [] = .good
      ∧ ((handed s).bulletinDocket 0).partner = none ∧ (∀ c, (handed s).takesNoPick c)
      ∧ (forward ((handed s).bulletinDocket 0).start (handed s).clock.value ≤ 600000 ↔ time = 25800000) := by
  rcases h with rfl | rfl | rfl
  · exact ⟨⟨⟨rfl, rfl⟩, calmBy (by decide)⟩, by decide, by decide, by decide, by decide, noPickBy (by decide),
    by decide⟩
  · exact ⟨⟨⟨rfl, rfl⟩, calmBy (by decide)⟩, by decide, by decide, by decide, by decide, noPickBy (by decide),
    by decide⟩
  · exact ⟨⟨⟨rfl, rfl⟩, calmBy (by decide)⟩, by decide, by decide, by decide, by decide, noPickBy (by decide),
    by decide⟩

/-- The same docket with partner slot 21, whose entry stands in the calendar. -/
def followerDocket : State :=
  { atTime 24000000 (docket .held 2 ([(97, 0x12), (98, 10), (99, 3), (100, 120), (102, 100), (104, 0x80), (105, 0x85),
      (106, 0x80), (107, 1), (108, 21)] ++ pageHundred)) with calendar := [entry 25200000] }

theorem witness_follower : Docketed followerDocket (some .bulletin)
    ∧ bulletinRefusal (handed followerDocket) ((handed followerDocket).bulletinDocket 0) = none
    ∧ intakeWalk noBus (handed followerDocket) 64 ((handed followerDocket).bulletinDocket 0).firstPage [] = .good
    ∧ ((handed followerDocket).bulletinDocket 0).partner = some 21
    ∧ (handed followerDocket).entryAt 21 = some (entry 25200000) :=
  ⟨⟨⟨rfl, rfl⟩, calmBy (by decide)⟩, by decide, by decide, by decide, by decide⟩

theorem witness_held_bulletin :
    let s : State := { bulletinAt 24000000 with calendar := (List.range 48).map (fun k => { entry 9 with
      slot := k + 50 }) }
    Docketed s (some .bulletin) ∧ bulletinRefusal (handed s) ((handed s).bulletinDocket 0) = none
      ∧ 48 ≤ (handed s).calendar.length :=
  ⟨⟨⟨rfl, rfl⟩, calmBy (by decide)⟩, by decide, by decide⟩

/-- An URGENT or DISTRESS docket for channels 2 and 3, with page 100. -/
def priorityDocket (x : ChState) (kind : Byte) : State := docket x kind ([(96, 6), (98, 100)] ++ pageHundred)

theorem witness_urgent : Docketed (priorityDocket .held 3) (some .urgent)
    ∧ (∀ c, inMask (priorityMask (handed (priorityDocket .held 3)) 0) c = true →
        (handed (priorityDocket .held 3)).takesNoPick c)
    ∧ maskChans (priorityMask (handed (priorityDocket .held 3)) 0) ≠ []
    ∧ (handed (priorityDocket .held 3)).priority.length < 8
    ∧ intakeWalk noBus (handed (priorityDocket .held 3)) 64
        ((handed (priorityDocket .held 3)).slotField 0 34 2) [] = .good :=
  ⟨⟨⟨rfl, rfl⟩, calmBy (by decide)⟩, fun c _ => noPickBy (by decide) c, by decide, by decide, by decide⟩

theorem witness_distress :
    let s := (priorityDocket .unready 4).setChan .c3 (fun _ => calmChan .held)
    Docketed s (some .distress)
      ∧ (∀ c, inMask (priorityMask (handed s) 0) c = true → (handed s).takesNoPick c
      ∧ ((handed s).chan c).state ≠ .faulted)
      ∧ (∃ c, inMask (priorityMask (handed s) 0) c = true ∧ ((handed s).chan c).state ≠ .held
          ∧ ((handed s).chan c).state ≠ .lockedOut)
      ∧ (handed s).priority.length < 8
      ∧ intakeWalk noBus (handed s) 64 ((handed s).slotField 0 34 2) [] = .good :=
  ⟨⟨⟨rfl, rfl⟩, calmBy (by decide)⟩, fun c _ => ⟨noPickBy (by decide) c, by cases c <;> decide⟩,
    ⟨.c2, by decide, by decide, by decide⟩, by decide, by decide⟩

theorem witness_held_priority :
    let s : State := { priorityDocket .held 3 with
      priority := (List.range 8).map (fun k => { prio true .pending with slot := k + 50 }) }
    Docketed s (some .urgent) ∧ maskChans (priorityMask (handed s) 0) ≠ [] ∧ 8 ≤ (handed s).priority.length :=
  ⟨⟨⟨rfl, rfl⟩, calmBy (by decide)⟩, by decide, by decide⟩

theorem witness_held_commit :
    let s : State := { docket .held 17 [] with store := (committing false).store }
    Docketed s (some .commit) ∧ (handed s).store.commit.isSome = true :=
  ⟨⟨⟨rfl, rfl⟩, calmBy (by decide)⟩, by decide⟩

/-- Refusals by kind code and first body bytes: each docket meets the cause named beside it. -/
theorem witness_refused_channel : Docketed (docket .held 6 [(96, 7)]) (some .hold)
    ∧ Docketed (docket .held 8 [(96, 2), (97, 32)]) (some .retune)
    ∧ Docketed (docket .held 63 []) none
    ∧ Chan.ofNumber ((handed (docket .held 6 [(96, 7)])).slotField 0 32 1) = none
    ∧ Chan.ofNumber ((handed (docket .held 6 [])).slotField 0 32 1) = none
    ∧ 31 < (handed (docket .held 8 [(96, 2), (97, 32)])).slotField 0 33 1 :=
  ⟨⟨⟨rfl, rfl⟩, calmBy (by decide)⟩, ⟨⟨rfl, rfl⟩, calmBy (by decide)⟩, ⟨⟨rfl, rfl⟩, calmBy (by decide)⟩, by decide,
    by decide, by decide⟩

theorem witness_refused_telex :
    telexRefusal (handed (telexDocket .lockedOut)) ((handed (telexDocket .lockedOut)).telexDocket 0) = some .channelFaulted
    ∧ telexRefusal (handed (docket .held 1 [(96, 2)])) ((handed (docket .held 1 [(96,
      2)])).telexDocket 0) = some .badText
    ∧ bulletinRefusal (handed (docket .held 2 [])) ((handed (docket .held 2 [])).bulletinDocket 0) = some .clockNotSet
    ∧ maskChans (priorityMask (handed (docket .held 3 [(96, 0x40)])) 0) = [] := by decide

theorem witness_refused_state :
    ((handed (docket .off 6 [(96, 2)])).chan .c2).state = .off
      ∧ ((handed (docket .faulted 6 [(96, 2)])).chan .c2).state = .faulted
    ∧ ((handed (docket .faulted 6 [(96, 2)])).chan .c2).offWaits = false
    ∧ 86399999 < (handed (docket .held 11 [(96, 0), (97, 0x5C), (98, 0x26), (99, 5)])).slotField 0 32 4
    ∧ (handed (docket .held 5 [(96, 9)])).telexAt ((handed (docket .held 5 [(96, 9)])).slotField 0 32 1) = none
    ∧ (handed (docket .held 5 [(96, 9)])).entryAt 9 = none
    ∧ (handed (docket .held 5 [(96, 9)])).prioAt 9 = none := by decide

theorem witness_refused_setup :
    let open1 : State := { docket .held 13 [] with store := { State.reset.store with setup := true } }
    let keyed : State :=
      { docket .held 17 [] with store := { State.reset.store with protection := .keyed, key := List.replicate 8 1 } }
    Docketed open1 (some .setup) ∧ (handed open1).store.setup = true
    ∧ (handed (docket .sending 13 [])).store.setup = false
    ∧ ((handed (docket .sending 13 [])).chan .c1).state.busy = true
    ∧ Docketed keyed (some .commit) ∧ (handed keyed).store.commit = none ∧ (handed keyed).store.protection = .keyed
    ∧ (handed keyed).slotBytes 0 32 8 ≠ (handed keyed).store.key :=
  ⟨⟨⟨rfl, rfl⟩, calmBy (by decide)⟩, rfl, rfl, rfl, ⟨⟨rfl, rfl⟩, calmBy (by decide)⟩, rfl, rfl, by decide⟩

/-- A WITHDRAW of slot 9, with the item of slot 9 in the given state. -/
def withdrawItem (ch : Channel) (x : TelexState) : State :=
  { (docket .held 5 [(96, 9)]).setChan .c2 (fun _ => ch) with telex := [item x] }

theorem witness_withdraw_telex (x : TelexState) (ch : Channel)
    (h : ch ∈ [calmChan .held, sendingText, { sendingText with segment := some .cutNotice }]) :
    let s := withdrawItem ch x
    Docketed s (some .withdraw) ∧ (handed s).slotField 0 32 1 = 9 ∧ (handed s).telexAt 9 = some (item x)
      ∧ (handed s).takesNoPick .c2 := by
  simp only [List.mem_cons, List.not_mem_nil, or_false] at h
  rcases h with rfl | rfl | rfl <;>
    exact ⟨⟨⟨rfl, rfl⟩, fun c => by cases c <;> exact ⟨(by decide : PickMark.none ≠ .now), rfl⟩⟩, rfl, rfl,
      ⟨fun e => ChState.noConfusion e, fun e => ChState.noConfusion e⟩⟩

theorem witness_withdraw_on_air : sendingText.state = .sending ∧ sendingText.segment = some .text
    ∧ ({ sendingText with segment := some .cutNotice } : Channel).segment = some .cutNotice := by decide

theorem witness_withdraw_urgent (distress : Bool) (x : ChanOutcome) :
    let s : State := { docket .held 5 [(96, 3)] with priority := [prio distress x] }
    Docketed s (some .withdraw) ∧ (handed s).slotField 0 32 1 = 3 ∧ (handed s).telexAt 3 = none
      ∧ (handed s).entryAt 3 = none ∧ (handed s).prioAt 3 = some (prio distress x)
      ∧ (prio distress x).distress = distress ∧ (prio distress x).withdrawn = false :=
  ⟨⟨⟨rfl, by cases distress <;> cases x <;> rfl⟩, fun c => by cases c <;> exact ⟨(by decide : PickMark.none ≠ .now),
    rfl⟩⟩, rfl, rfl,
    rfl, rfl, rfl, rfl⟩

theorem witness_withdraw_urgent_waits : ∀ c, (prio false .pending).out.get c ≠ .onAir := by
  intro c
  cases c <;> decide

theorem witness_withdraw_urgent_again :
    let e : PrioEntry := { prio false .onAir with withdrawn := true }
    let s : State := { docket .held 5 [(96, 3)] with priority := [e] }
    Docketed s (some .withdraw) ∧ (handed s).prioAt 3 = some e ∧ e.distress = false ∧ e.withdrawn = true :=
  ⟨⟨⟨rfl, rfl⟩, calmBy (by decide)⟩, rfl, rfl, rfl⟩

theorem witness_withdraw_urgent_on_air : ∃ c, (prio false .onAir).out.get c = .onAir := ⟨.c2, rfl⟩

/-- A docket that names a channel, all channels in one state. -/
theorem witness_channel_docket (x : ChState) (k : Byte) (kind : Option Kind)
    (h : (k, kind) ∈ [((6 : Byte), some Kind.hold), (7, some .release), (8, some .retune), (9, some .clearfault),
      (10, some .quieten), (12, some .snapshot)]) :
    let s := docket x k [(96, 2)]
    Docketed s kind ∧ Chan.ofNumber ((handed s).slotField 0 32 1) = some .c2 ∧ ((handed s).chan .c2).state = x
      ∧ ((handed s).chan .c2).offWaits = false ∧ ((handed s).chan .c2).pendingHold = none
      ∧ ((handed s).chan .c2).pendingRetune = none ∧ ((handed s).chan .c2).follower = none
      ∧ (handed s).pendingRelay .c2 = none ∧ ((handed s).chan .c2).readyView = true
      ∧ ((handed s).chan .c2).onAir = none ∧ (handed s).slotField 0 33 1 ≤ 31
      ∧ ((handed s).chan .c2).line.alarm.level = none ∧ (handed s).NothingFor .c2 := by
  simp only [List.mem_cons, Prod.mk.injEq, List.not_mem_nil, or_false] at h
  rcases h with h | h | h | h | h | h <;> obtain ⟨rfl, rfl⟩ := h <;>
    exact ⟨⟨⟨rfl, rfl⟩, fun c => by cases c <;> exact ⟨(by decide : PickMark.none ≠ .now), rfl⟩⟩, rfl, rfl, rfl, rfl,
      rfl, rfl, rfl, rfl, rfl, (by decide : (0 : Nat) ≤ 31), rfl, ⟨rfl, rfl, rfl, rfl, rfl, rfl, rfl⟩⟩

theorem witness_quieten_channel : Docketed (docket .held 10 [(96, 7)]) (some .quieten)
    ∧ Chan.ofNumber ((handed (docket .held 10 [(96, 7)])).slotField 0 32 1) = none :=
  ⟨⟨⟨rfl, rfl⟩, calmBy (by decide)⟩, by decide⟩

theorem witness_hold_pending :
    let s := (docket .sending 6 [(96, 2)]).setChan .c2 (fun ch => { ch with pendingHold := some 50 })
    Docketed s (some .hold) ∧ ((handed s).chan .c2).state = .sending
      ∧ ((handed s).chan .c2).pendingHold.isSome = true :=
  ⟨⟨⟨rfl, rfl⟩, calmBy (by decide)⟩, rfl, rfl⟩

theorem witness_setclock (k : State) (h : k = docket .held 11 [(96, 0xFF), (97, 0x5B), (98, 0x26), (99, 5)]) :
    Docketed k (some .setclock) ∧ (handed k).slotField 0 32 4 = 86399999 ∧ (handed k).calendar = []
      ∧ ∀ c, (handed k).takesNoPick c := by
  subst h
  exact ⟨⟨⟨rfl, rfl⟩, calmBy (by decide)⟩, by decide, rfl, noPickBy (by decide)⟩

theorem witness_jump_entry :
    let s : State := { station .held with calendar := [entry 900000] }
    s.calendar = [entry 900000] ∧ (∀ c, s.takesNoPick c) ∧ (entry 900000).phase = some .waiting
      ∧ (entry 900000).role = .single ∧ (entry 900000).withdrawn = false ∧ 1 ≤ (entry 900000).left
      ∧ forward 85800000 1200000 < 43200000 ∧ 1 ≤ forward 85800000 (entry 900000).start
      ∧ forward 85800000 (entry 900000).start ≤ forward 85800000 1200000
      ∧ forward (entry 900000).start 1200000 ≤ (entry 900000).tolerance
      ∧ 43200000 ≤ forward 21600000 19800000 ∧ 43200000 ≤ forward 1800000 900000 ∧ (entry 900000).start = 900000 :=
  ⟨rfl, noPickBy (by decide), rfl, rfl, rfl, by decide, by decide, by decide, by decide, by decide, by decide,
    by decide,
    rfl⟩

/-- The part in setup mode with a staged image that switches channel 2 OFF. -/
def leavingSetup : State :=
  { docket .held 14 [] with store := { State.reset.store with
      setup := true
      staged := some { Image.factory with chan := Image.factory.chan.set .c2 { ChanSettings.factory with
        enabled := false } } } }

theorem witness_setup : Docketed (docket .held 13 []) (some .setup) ∧ (handed (docket .held 13 [])).store.setup = false
    ∧ (∀ c, ((handed (docket .held 13 [])).chan c).state.busy = false) :=
  ⟨⟨⟨rfl, rfl⟩, calmBy (by decide)⟩, rfl, each (by decide)⟩

theorem witness_setup_exit : Docketed leavingSetup (some .setupExit) ∧ (handed leavingSetup).store.setup = true
    ∧ (handed leavingSetup).telex = [] ∧ (handed leavingSetup).calendar = [] ∧ (handed leavingSetup).priority = []
    ∧ (∀ c, ((handed leavingSetup).chan c).onAir = none) ∧ (∀ c, (handed leavingSetup).takesNoPick c)
    ∧ ((handed leavingSetup).store.working.chan.get .c2).enabled = true
    ∧ ((handed leavingSetup).store.staged.map (fun i => (i.chan.get .c2).enabled)) = some false :=
  ⟨⟨⟨rfl, rfl⟩, calmBy (by decide)⟩, rfl, rfl, rfl, rfl, each (by decide), noPickBy (by decide), rfl, rfl⟩

theorem witness_settings_read : Docketed (docket .held 15 [(96, 0xFE), (97, 0x0F)]) (some .settingsRead)
    ∧ (handed (docket .held 15 [(96, 0xFE), (97, 0x0F)])).MemoryCanonical
    ∧ (handed (docket .held 15 [(96, 0xFE), (97, 0x0F)])).slotField 0 32 2 = 4094 :=
  ⟨⟨⟨rfl, rfl⟩, calmBy (by decide)⟩, rfl, by decide⟩

theorem witness_settings_write :
    let s : State := { docket .held 16 [(96, 1)] with store := { State.reset.store with setup := true } }
    Docketed s (some .settingsWrite) ∧ (handed s).store.setup = true ∧ (handed s).slotField 0 32 2 = 1 :=
  ⟨⟨⟨rfl, rfl⟩, calmBy (by decide)⟩, rfl, by decide⟩

theorem witness_commit_docket : Docketed (docket .held 17 []) (some .commit)
    ∧ (handed (docket .held 17 [])).store.commit = none ∧ (handed (docket .held 17 [])).store.protection = .openLevel
    ∧ (handed (docket .held 17 [])).slotBytes 0 32 8 = (handed (docket .held 17 [])).store.key :=
  ⟨⟨⟨rfl, rfl⟩, calmBy (by decide)⟩, rfl, rfl, by decide⟩

/-- A series of the factory image is the factory series. -/
theorem factory_series {k : Series} (h : k ∈ Image.factory.series) : k.InRange :=
  (List.eq_of_mem_replicate h : k = Series.factory) ▸ (by unfold Series.InRange; decide)

theorem witness_image : Image.factory.InRange := by
  constructor <;> first
    | decide
    | exact fun c => by unfold ChanSettings.InRange; cases c <;> decide
    | exact fun k h => factory_series h

theorem witness_release_unready :
    let s := (docket .held 7 [(96, 2)]).setChan .c2 (fun ch => { ch with readyView := false })
    Docketed s (some .release) ∧ ((handed s).chan .c2).state = .held ∧ ((handed s).chan .c2).readyView = false :=
  ⟨⟨⟨rfl, rfl⟩, calmBy (by decide)⟩, rfl, rfl⟩

/-! ## Witnesses: a channel on the air -/

theorem witness_text :
    let s := airing { sendingText with rest := [0x42] } (item .onAir)
    s.power = true ∧ s.Calm ∧ (s.chan .c2).period = some 0 ∧ (s.chan .c2).state = .sending
      ∧ (s.chan .c2).segment = some .text ∧ (s.chan .c2).waiting = false ∧ s.Undisturbed .c2
      ∧ s.telexOn .c2 = some (item .onAir) ∧ (s.chan .c2).tx.map Tx.kind = some .text
      ∧ (s.chan .c2).rest = 0x42 :: [] ∧ (s.chan .c1).period ≠ some 0 :=
  ⟨rfl, calmBy (by decide), rfl, rfl, rfl, rfl, undisturbedBy (by decide), rfl, rfl, rfl, by decide⟩

theorem witness_break_point (e : List CalEntry) (r : Option Reading)
    (h : (e, r) ∈ [([{ entry 0 with phase := some .due }], none), ([], some (settledReading false))]) :
    let s : State := { airing { sendingText with fetch := { Fetcher.reset with
      reading := r } } (item .onAir) with calendar := e }
    s.power = true ∧ s.Calm ∧ (s.chan .c2).period = some 0 ∧ (s.chan .c2).rest = [] ∧ (s.chan .c2).lineFinal = false
      ∧ (s.chan .c2).decided = none ∧ s.Undisturbed .c2 ∧ s.telexOn .c2 = some (item .onAir)
      ∧ s.preempted .c2 = r.isNone ∧ s.available .c2 = none ∧ (s.chan .c2).item.cut.head? = some 0x42 := by
  simp only [List.mem_cons, Prod.mk.injEq, List.not_mem_nil, or_false] at h
  rcases h with ⟨rfl, rfl⟩ | ⟨rfl, rfl⟩ <;>
    exact ⟨rfl, calmBy (by decide), rfl, rfl, rfl, rfl, undisturbedBy (by decide), rfl, by decide, by decide, rfl⟩

theorem witness_final_line (g : Segment) (h : g = .text ∨ g = .signoff) :
    let s := airing { sendingText with segment := some g, lineFinal := true } (item .onAir)
    s.power = true ∧ s.Calm ∧ (s.chan .c2).period = some 0 ∧ (s.chan .c2).rest = [] ∧ s.NothingBehind .c2 (item .onAir)
      ∧ (s.chan .c2).segment = some g ∧ (s.chan .c2).decided = none ∧ (s.chan .c2).waiting = false
      ∧ (item .onAir).callCode = [] ∧ (s.chan .c2).item.hang ≠ 0 ∧ (s.chan .c2).item.signoff.head? = some 0x4E := by
  rcases h with rfl | rfl <;>
    exact ⟨rfl, calmBy (by decide), rfl, rfl, behindBy (by decide) (by decide), rfl, rfl, rfl, rfl, by decide, rfl⟩

/-- A page of a transmission, with the codes of it still to send. -/
def bodyPage (rest : List Byte) : PageCopy :=
    { num := 100, walked := 1, start := 0, count := 2, next := 65535, rest := rest }

/-- A channel that sends the relay of slot 3, with the pages of its transmission. -/
def relaying (x : ChState) (pages : List PageCopy) : Channel :=
  { calmChan x with
    onAir := some { kind := .distress, slot := 3, repetition := 0, resumed := false }, period := some 0, lead := some 0
    tx := some { kind := .body, code := 0x41 }
    fetch := { Fetcher.reset with body := some { pages := pages, request := none, walked := 1, failed := false } } }

theorem witness_relay_ends :
    let s : State := { only (relaying .sending [bodyPage []]) with priority := [prio true .onAir] }
    s.power = true ∧ s.Calm ∧ maskChans (prio true .onAir).mask = [.c2]
      ∧ (∀ d, (prio true .onAir).out.get d = if d = .c2 then .onAir else .notUsed)
      ∧ (s.chan .c2).fetch.body.map BodyReading.complete = some true ∧ s.dueEntry .c2 = none ∧ s.head .c2 = none
      ∧ (s.chan .c2).pendingHold = none ∧ (s.chan .c2).follower = none ∧ (s.chan .c2).item.hang ≠ 0 :=
  ⟨rfl, calmBy (by decide), by decide, fun d => by cases d <;> rfl, by decide, by decide, rfl, rfl, rfl, by decide⟩

theorem witness_relay_or_stop (stop : Bool) (l : List PrioEntry) (h : (stop, l) ∈ [(false, [prio true .pending]),
    (true, [])]) :
    let s : State := { airing { sendingText with rest := [0x42], stopAtBoundary := stop } (item .onAir) with
      priority := l }
    s.power = true ∧ s.Calm ∧ (s.chan .c2).rest ≠ [] ∧ s.telexOn .c2 = some (item .onAir) ∧ (s.chan .c2).fixed = none
      ∧ (s.chan .c2).decided = none ∧ (s.chan .c2).offWaits = false ∧ (s.chan .c2).stopAtBoundary = stop
      ∧ s.pendingRelay .c2 = l.head? := by
  simp only [List.mem_cons, Prod.mk.injEq, List.not_mem_nil, or_false] at h
  rcases h with ⟨rfl, rfl⟩ | ⟨rfl, rfl⟩ <;>
    exact ⟨rfl, calmBy (by decide), by decide, rfl, rfl, rfl, rfl, rfl, by decide⟩

theorem witness_lead_body (pages : List PageCopy) (h : pages = [] ∨ pages = [bodyPage [0x41, 0x42]]) :
    let s : State := { only (relaying .keying pages) with priority := [prio true .onAir] }
    s.power = true ∧ s.Calm ∧ (s.chan .c2).lead = some 0 ∧ (s.chan .c2).state = .keying ∧ s.Undisturbed .c2
      ∧ (((s.chan .c2).fetch.body.bind BodyReading.take).isSome = !pages.isEmpty) := by
  rcases h with rfl | rfl <;> exact ⟨rfl, calmBy (by decide), rfl, rfl, undisturbedBy (by decide), by decide⟩

theorem witness_lead_telex (i : TelexItem) (h : i = item .onAir ∨ i = shipItem .calling) :
    let s := airing { calmChan .keying with
      onAir := some { kind := .telex, slot := 9, repetition := 0, resumed := false }, lead := some 0
      fetch := { Fetcher.reset with reading := some (settledReading false) } } i
    s.power = true ∧ s.Calm ∧ (s.chan .c2).lead = some 0 ∧ (s.chan .c2).state = .keying ∧ s.Undisturbed .c2
      ∧ s.telexAt 9 = some i ∧ i.callCode = (if i.state = .calling then [0x31, 0x32] else []) := by
  rcases h with rfl | rfl <;> exact ⟨rfl, calmBy (by decide), rfl, rfl, undisturbedBy (by decide), rfl, by decide⟩

theorem witness_hang (n : Nat) (stop : Bool) (h : n = 0 ∨ n = 1) :
    let s := only { calmChan .hang with hang := some n, stopAtBoundary := stop }
    s.power = true ∧ s.Calm ∧ (s.chan .c2).state = .hang ∧ (s.chan .c2).hang = some n ∧ s.pendingRelay .c2 = none
      ∧ (s.chan .c2).offWaits = false ∧ (s.chan .c2).stopAtBoundary = stop ∧ s.NothingFor .c2 := by
  rcases h with rfl | rfl <;> cases stop <;>
    exact ⟨rfl, calmBy (by decide), rfl, rfl, by decide, rfl, rfl, nothingBy (by decide)⟩

/-- A channel in the lookahead wait, its timers run out. -/
def waitingChan : Channel :=
  { sendingText with
    waiting := true, tx := some { kind := .idle, code := 0 }
    fetch := { Fetcher.reset with
      reading := some { settledReading false with condition := .blocked }, reread := some 0, starvation := some 0 } }

theorem witness_wait : (only waitingChan).power = true ∧ ((only waitingChan).chan .c2).fetch.reread = some 0
    ∧ ((only waitingChan).chan .c2).waiting = true ∧ ((only waitingChan).chan .c2).fetch.starvation = some 0
    ∧ ((only waitingChan).chan .c2).decided = none ∧ ((only waitingChan).chan .c1).fetch.reread ≠ some 0
    ∧ ((only waitingChan).chan .c1).fetch.starvation ≠ some 0 := by decide

/-- Threshold (12 + 1) × 150 = 1950: A is 1950 with the start 31,950 ms ahead, and 1951 with one ms more. -/
theorem witness_threshold :
    let s (start : Nat) : State := { airing waitingChan (item .onAir) with calendar := [entry start] }
    ((s 31950).chan .c2).waitOpen = true ∧ (s 31950).available .c2 = some 1950 ∧ (s 31951).available .c2 = some 1951
      ∧ (((s 31950).chan .c2).item.cut.length + 1) * ((s 31950).chan .c2).item.period = 1950 := by decide

theorem witness_retune_limit (n faults : Nat) (k : faults ≤ 1) :
    let s := only { calmChan .retuning with
      retuneLimit := some n, retune := some 7, line := { LineSection.powerOn with faults := faults } }
    s.power = true ∧ s.Calm ∧ (s.chan .c2).state = .retuning ∧ (s.chan .c2).retuneLimit = some n
      ∧ (s.chan .c2).onAir = none
      ∧ (s.chan .c2).follower = none ∧ (s.chan .c2).offWaits = false ∧ s.pendingRelay .c2 = none
      ∧ (s.chan .c2).line.faults < 2 ∧ (s.chan .c2).line.quiet = none :=
  ⟨rfl, fun c => by cases c <;> exact ⟨(by decide : PickMark.none ≠ .now), rfl⟩, rfl, rfl, rfl, rfl, rfl, rfl,
    Nat.lt_succ_of_le k, rfl⟩

theorem witness_line_check :
    let s := only { calmChan .idle with line := { LineSection.powerOn with
      check := some 0, ready := ⟨some true, 7⟩, readyDeclared := true, alarm := ⟨some false, 7⟩ } }
    s.power = true ∧ s.Calm ∧ (s.store.working.chan.get .c2).aux ≠ .stopKey ∧ (s.chan .c2).line.check = some 0
      ∧ (s.chan .c2).state = .idle ∧ (s.chan .c2).line.readyDeclared = true
      ∧ (s.chan .c2).line.ready.level = some true ∧ (s.chan .c1).line.check ≠ some 0 :=
  ⟨rfl, calmBy (by decide), by decide, rfl, rfl, rfl, rfl, by decide⟩

theorem witness_line_check_alarm :
    let s := only { calmChan .held with line := { LineSection.powerOn with
      check := some 0, ready := ⟨some true, 7⟩, readyDeclared := true, alarm := ⟨some true, 7⟩,
        alarmDeclared := true } }
    (s.chan .c2).line.alarm.level = some true ∧ (s.chan .c2).line.alarmDeclared = true
      ∧ (s.chan .c2).state = .held := by decide

theorem witness_onset :
    let s := only { calmChan .unready with line := { LineSection.powerOn with
      check := some 0, alarm := ⟨some true, 4⟩ } }
    s.power = true ∧ s.Calm ∧ (s.chan .c2).state = .unready
      ∧ (s.chan .c2).line.alarm = { level := some true, count := s.store.working.alarmDelay - 1 }
      ∧ 1 ≤ s.store.working.alarmDelay ∧ s.store.working.alarmDelay ≤ 50 ∧ (s.chan .c2).line.alarmDeclared = false
      ∧ (s.chan .c2).onAir = none ∧ (s.chan .c2).retune = none ∧ (s.chan .c2).follower = none
      ∧ (s.chan .c2).offWaits = false ∧ s.pendingRelay .c2 = none ∧ (s.chan .c2).line.faults < 2 :=
  ⟨rfl, calmBy (by decide), rfl, rfl, by decide, by decide, rfl, rfl, rfl, rfl, rfl, rfl, by decide⟩

theorem witness_quiet (n : Nat) (h : n = 99 ∨ n = 100) :
    let s := only { calmChan .faulted with line := { LineSection.powerOn with quiet := some 0, recovery := n } }
    s.power = true ∧ s.Calm ∧ (s.chan .c2).line.quiet = some 0 ∧ (s.chan .c2).state = .faulted
      ∧ (s.store.working.recoveryDelay ≤ (s.chan .c2).line.recovery ↔ n = 100)
      ∧ (s.chan .c2).line.recoveryReported = false ∧ (s.chan .c2).onAir = none ∧ s.NothingFor .c2 := by
  rcases h with rfl | rfl <;>
    exact ⟨rfl, calmBy (by decide), rfl, rfl, by decide, rfl, rfl, nothingBy (by decide)⟩

/-! ## Witnesses: calls and pages -/

/-- A channel that listens for the ship of slot 9. -/
def listening (x : ChState) (m : CallMode) (attempts : Nat) : Channel :=
  { calmChan x with
    onAir := some { kind := .telex, slot := 9, repetition := 0, resumed := false }
    call := { condition := .listen, mode := some m, resumed := some false, window := [0x51], attempts := attempts, timer := some 0 }
    fetch := { Fetcher.reset with reading := some (settledReading true) } }

theorem witness_rxd :
    let s := airing (listening .calling .opening 0) (shipItem .calling)
    s.power = true ∧ s.Calm ∧ (s.chan .c1).call.condition ≠ .listen ∧ (s.chan .c2).call.condition = .listen
      ∧ s.telexOn .c2 = some (shipItem .calling) ∧ (s.chan .c2).call.window.length + 1 < 24
      ∧ answerbackMatches ((s.chan .c2).call.window ++ [0x0D]) (shipItem .calling).answerback = false
      ∧ answerbackMatches ((s.chan .c2).call.window ++ [0x52]) (shipItem .calling).answerback = true
      ∧ (s.chan .c2).fetch.reading = some (settledReading true) ∧ s.Undisturbed .c2 :=
  ⟨rfl, calmBy (by decide), by decide, rfl, rfl, by decide, by decide, by decide, rfl, undisturbedBy (by decide)⟩

theorem witness_window : answerbackMatches [0x0D, 0x51] ([] : List Byte) = true
    ∧ ([0x0D, 0x51] : List Byte) = [0x0D] ++ [0x51] := by
  decide

theorem witness_timeout (x : ChState) (m : CallMode) (n : Nat)
    (h : (x, m, n) ∈ [(ChState.calling, CallMode.opening, 1), (.calling, .opening, 2), (.closing, .closing, 0)]) :
    let s := airing (listening x m n) (shipItem (if x = .closing then .onAir else .calling))
    s.power = true ∧ s.Calm ∧ s.NothingBehind .c2 (shipItem (if x = .closing then .onAir else .calling))
      ∧ (s.chan .c2).call.condition = .listen ∧ (s.chan .c2).call.timer = some 0 ∧ (s.chan .c2).state = x
      ∧ (s.chan .c2).call.mode = some m ∧ (s.chan .c2).item.hang ≠ 0 ∧ s.store.working.callAttempts = 3
      ∧ (s.chan .c2).call.attempts = n ∧ s.trafficSource .c2 = false ∧ s.available .c2 = none := by
  simp only [List.mem_cons, Prod.mk.injEq, List.not_mem_nil, or_false] at h
  rcases h with ⟨rfl, rfl, rfl⟩ | ⟨rfl, rfl, rfl⟩ | ⟨rfl, rfl, rfl⟩ <;>
    exact ⟨rfl, calmBy (by decide), behindBy (by decide) (by decide), rfl, rfl, rfl, rfl, by decide, rfl, rfl,
      by decide,
      by decide⟩

/-- A first-line reading of the item of slot 9 whose page access is of page 100. -/
def firstReading : Reading :=
  { slot := 9, first := true, lineEnd := 0x0A, line := [], copy := none, request := some (.read 100 0 0 0),
    condition := .inProgress }

theorem witness_page_read (m : List Host.Cell) (h : m = [] ∨ m = pageHundred) :
    let s : State := { airing { calmChan .unready with fetch := { Fetcher.reset with
      reading := some firstReading } } (item .queued) with mem := m }
    s.power = true ∧ s.Calm ∧ s.takesNoPick .c2 ∧ s.telexOn .c2 = none ∧ (s.chan .c2).fetch.reading = some firstReading
      ∧ s.telexAt 9 = some (item .queued) ∧ (item .queued).channel = .c2
      ∧ ((s.pageHeader 100).state = 1 ∧ (s.pageHeader 100).count = 2 ↔ m ≠ []) := by
  rcases h with rfl | rfl <;>
    exact ⟨rfl, calmBy (by decide), noPickBy (by decide) .c2, rfl, rfl, rfl, rfl, by decide⟩

theorem witness_page_settles (r : Result) :
    let copy : PageCopy :=
      { num := 100, walked := 1, start := 0, count := 2, next := 65535, rest := [0x41, 0x42] }
    (firstReading.takeFrom copy).condition ≠ .unreadable r := by
  cases r <;> decide

theorem witness_line : takeLine 0x0A (List.replicate 129 0x41) [] = (List.replicate 128 0x41, [0x41], true)
    ∧ takeLine 0x0A [0x41] [] = ([0x41], [], false) := by decide

theorem witness_body_read :
    let s : State := { only (relaying .sending []) with mem := pageHundred }
    s.power = true ∧ s.Calm ∧ (s.chan .c2).state ≠ .keying ∧ (s.pageHeader 100).state = 1 ∧ (s.pageHeader 100).count = 2
      ∧ (s.pageHeader 100).next = 65535
      ∧ (only (calmChan .held)).pageHeader 100 = { state := 0, count := 0, next := 0 } :=
  ⟨rfl, calmBy (by decide), by decide, by decide, by decide, by decide, by decide⟩

theorem witness_body_request : ({ pages := [], request := some 100, walked := 63, failed := false } : BodyReading).walked < 64 := by
  decide

theorem witness_walk (m : List Host.Cell) (h : m = [] ∨ m = pageHundred) :
    let s : State := { only { calmChan .held with fetch := { Fetcher.reset with
      walks := [{ slot := 9, page := 100, limit := 1 }] } } with mem := m }
    s.power = true ∧ s.MemoryCanonical ∧ (s.chan .c2).fetch.walks = [{ slot := 9, page := 100, limit := 1 }]
      ∧ ((s.pageHeader 100).state = 1 ∧ (s.pageHeader 100).next = 65535 ↔ m ≠ []) := by
  rcases h with rfl | rfl <;> exact ⟨rfl, rfl, rfl, by decide⟩

/-! ## Witnesses: the whole part -/

theorem witness_sound : (airing sendingText (item .onAir)).Sound :=
  ⟨(by decide : 0 < 86400000), rfl, ⟨by decide, fun c => by cases c <;> decide, by decide, by decide⟩,
    fun c => by cases c <;> decide, fun _ => rfl, (by decide : [9].Nodup), fun _ h => by cases h⟩

theorem witness_sound_step : step (airing sendingText (item .onAir)) = .next (airing sendingText (item .onAir)) := rfl

theorem witness_channel_command : Instr.channelBus (.hangExpiry .c2 noBus) = some noBus
    ∧ exec (.hangExpiry .c2 noBus) (only (calmChan .hang)) = .next (after (.hangExpiry .c2 noBus) (only (calmChan .hang)))
    ∧ (only (calmChan .hang)).MemoryCanonical := ⟨rfl, rfl, rfl⟩

/-! ## Witnesses: sweeps -/

/-- An answer of a slot in the backlog, by whether it waits for its marking walk. -/
def answer (slot : Nat) (walk : Bool) : Answer := (station .held).takenAnswer slot .done .none walk

/-- The part between sweeps with a backlog. -/
def withBacklog (l : List Answer) : State := { station .held with rack := { (station .held).rack with backlog := l } }

theorem witness_posting_front (front rest : List Answer)
    (h : (front, rest) ∈ [([answer 5 false, answer 127 false], [answer 20 true, answer 31 false]), ([], [answer 0 true]),
      ([answer 0 false], []), ([], [])]) :
    let s := withBacklog (front ++ rest)
    s.power = true ∧ s.MemoryCanonical ∧ s.rack.run = true ∧ s.rack.sweep = none ∧ s.rack.abandon = []
      ∧ s.rack.pendingTakes = [] ∧ (∀ a ∈ front, a.walk = false ∧ a.slot < 128) ∧ (front.map Answer.slot).Nodup
      ∧ (∀ a ∈ rest.head?, a.walk = true) := by
  simp only [List.mem_cons, Prod.mk.injEq, List.not_mem_nil, or_false] at h
  rcases h with h | h | h | h <;> obtain ⟨rfl, rfl⟩ := h <;>
    exact ⟨rfl, rfl, rfl, rfl, rfl, rfl, by decide, by decide, by decide⟩

/-- The part with an item in slot 9, an entry in slot 21 and a bulletin in slot 3, their marks as given. -/
def progressing (changed : Bool) : State :=
  { station .held with
    telex := [{ item .queued with changed := changed }], calendar := [{ entry 0 with changed := changed }]
    priority := [{ prio false .sent with changed := changed }] }

theorem witness_progress (changed : Bool) :
    let s := progressing changed
    s.power = true ∧ s.MemoryCanonical ∧ s.rack.run = true ∧ s.rack.sweep = none ∧ s.rack.abandon = []
      ∧ s.rack.pendingTakes = [] ∧ s.rack.backlog = []
      ∧ s.telexAt 9 = some { item .queued with changed := changed }
      ∧ s.telexAt 21 = none ∧ s.entryAt 21 = some { entry 0 with changed := changed }
      ∧ s.telexAt 3 = none ∧ s.entryAt 3 = none ∧ s.prioAt 3 = some { prio false .sent with changed := changed }
      ∧ s.telexAt 127 = none ∧ s.entryAt 127 = none ∧ s.prioAt 127 = none
      ∧ Access.progress 9 68 ∈ ({ noBus with errors := [.progress 9 68, .header 0] } : Bus).errors :=
  ⟨rfl, rfl, rfl, rfl, rfl, rfl, rfl, rfl, rfl, rfl, rfl, rfl, rfl, rfl, rfl, rfl, by decide⟩

/-- After a part reset: slot 1 TAKEN, slot 2 FILED, and slots 1, 2 and 127 still to be abandoned. -/
def abandoning : State :=
  { station .held with
    mem := [(192, 2), (320, 1)], rack := { (station .held).rack with abandon := [1, 2, 127] } }

theorem witness_abandon : abandoning.power = true ∧ abandoning.MemoryCanonical ∧ abandoning.rack.run = true
    ∧ abandoning.rack.sweep = none ∧ abandoning.rack.pendingTakes = [] ∧ abandoning.rack.backlog = []
    ∧ abandoning.rack.abandon.Nodup ∧ (∀ k ∈ abandoning.rack.abandon, k < 128)
    ∧ abandoning.slotState 1 = 2 ∧ abandoning.slotState 2 = 1 := by
  refine ⟨rfl, rfl, rfl, rfl, rfl, rfl, ?_, ?_, ?_, ?_⟩ <;> decide

theorem witness_pending_take :
    let s : State := { station .held with rack := { (station .held).rack with pendingTakes := [(127, 4294967295)] } }
    s.power = true ∧ s.MemoryCanonical ∧ s.rack.run = true ∧ s.rack.sweep = none ∧ s.rack.abandon = []
      ∧ s.rack.pendingTakes = [(127, 4294967295)] ∧ s.rack.backlog = [] := ⟨rfl, rfl, rfl, rfl, rfl, rfl, rfl⟩

theorem witness_violation :
    let s := withBacklog [answer 127 false]
    s.rack.backlog = answer 127 false :: [] ∧ s.MemoryCanonical ∧ s.slotState 127 ≠ 2
      ∧ (answer 127 false).expected = .taken ∧ (answer 127 false).walk = false
      ∧ Access.post 127 ∈ ({ noBus with errors := [.post 127] } : Bus).errors := by
  refine ⟨rfl, rfl, ?_, ?_, ?_, ?_⟩ <;> decide

/-- The last visit of a sweep, of slot 127, which is FILED while the item of slot 127 is in the pool. -/
def heldVisit : State :=
  { lastVisit false false with mem := [(16320, 1)], telex := [{ item .queued with slot := 127 }] }

theorem witness_held_visit : heldVisit.power = true ∧ heldVisit.rack.run = false ∧ heldVisit.rack.sweep = some 127
    ∧ heldVisit.rack.abandon = [] ∧ heldVisit.slotState 127 = 1 ∧ heldVisit.holdsSlot 127 = true
    ∧ heldVisit.pendingTake 127 = none ∧ heldVisit.rack.backlog = [] := by
  refine ⟨rfl, rfl, rfl, rfl, ?_, ?_, ?_, ?_⟩ <;> decide

/-! ## Witnesses: repetitions, pairs and the wait -/

/-- Channel 2 sends the item of slot 9 and waits for its next line; the calendar is as given. -/
def waitingBeside (l : List CalEntry) : State := { airing waitingChan (item .onAir) with calendar := l }

theorem witness_start_in_wait :
    let s := waitingBeside [{ entry 0 with arrived := true }, { entry 31950 with slot := 22 }]
    s.power = true ∧ s.Calm ∧ (∀ c, s.takesNoPick c) ∧ (s.calendar.map CalEntry.slot).Nodup
      ∧ (s.chan .c2).waitOpen = true ∧ (s.chan .c3).waitOpen = false ∧ inMask (entry 0).mask .c2 = true
      ∧ (entry 0).phase = some .waiting ∧ (entry 0).role ≠ .follower :=
  ⟨rfl, calmBy (by decide), noPickBy (by decide), by decide, by decide, by decide, by decide, rfl, by decide⟩

/-- The entry of slot 21 at its limit, `e` ms after its start time, with so many repetitions left. -/
def limitAt (e left : Nat) : CalEntry := { limitEntry .sent left with e := e }

theorem witness_next_repetition (e left k : Nat)
    (h : (e, left, k) ∈ [(600001, 2, 0), (7200000, 3, 0), (7800001, 3, 1), (14400000, 3, 1)]) :
    let s : State := { station .held with calendar := [limitAt e left] }
    s.power = true ∧ s.Calm ∧ (∀ c, s.takesNoPick c) ∧ s.entryAt 21 = some (limitAt e left)
      ∧ (∀ c, inMask (limitAt e left).mask c = true → (limitAt e left).out.get c ≠ .onAir)
      ∧ k + 1 < left ∧ (∀ j < k, (600000 : Int) < (e : Int) - (j + 1 : Nat) * (7200000 : Nat))
      ∧ (e : Int) - (k + 1 : Nat) * (7200000 : Nat) ≤ (600000 : Nat)
      ∧ (limitAt e left).tolerance = 600000 ∧ (limitAt e left).interval = 7200000 := by
  simp only [List.mem_cons, Prod.mk.injEq, List.not_mem_nil, or_false] at h
  rcases h with h | h | h | h <;> obtain ⟨rfl, rfl, rfl⟩ := h <;>
    exact ⟨rfl, calmBy (by decide), noPickBy (by decide), rfl, fun c _ => by cases c <;> decide, by decide, by decide,
      by decide, rfl, rfl⟩

theorem witness_all_missed : (1 < 3)
  ∧ ∀ j < 3 - 1, (600000 : Int) < (15000001 : Int) - (j + 1 : Nat) * (7200000 : Nat) := by
  decide

/-- A pair for channels 2 and 5: the leader of slot 21 and the follower of slot 22, each with its outcome on channel 2. -/
def pair (l f : ChanOutcome) : List CalEntry :=
  [{ entry 0 with
    role := .leader, partner := some 22, phase := some .due, out := (pendingOn 0x12).set .c2 l, passing := true },
   { entry 0 with slot := 22, role := .follower, partner := some 21, phase := none, out := (pendingOn 0x12).set .c2 f }]

/-- Channel 2 on the air with the bulletin of a slot, its pages read or not. -/
def sendingBulletin (slot : Nat) (done stop : Bool) : Channel :=
  { calmChan .sending with
    onAir := some { kind := .bulletin, slot := slot, repetition := 1, resumed := false }, period := some 0
    tx := some { kind := .body, code := 0x41 }, stopAtBoundary := stop
    fetch := { Fetcher.reset with
      body := some { pages := [bodyPage (if done then [] else [0x42])], request := none, walked := 1, failed := false } } }

theorem witness_pair (slot : Nat) (l f : ChanOutcome)
    (h : (slot, l, f) ∈ [(21, ChanOutcome.onAir, ChanOutcome.pending), (21, .onAir, .failed), (22, .sent, .onAir)]) :
    let s : State := { only (sendingBulletin slot (slot == 21) (slot == 22)) with calendar := pair l f }
    s.power = true ∧ s.Calm ∧ (s.chan .c2).period = some 0 ∧ (s.chan .c2).state = .sending
      ∧ (s.chan .c2).segment = none ∧ (s.chan .c2).fetch.body.map BodyReading.complete = some (slot == 21)
      ∧ (s.chan .c2).stopAtBoundary = (slot == 22) ∧ (s.chan .c2).offWaits = false ∧ s.pendingRelay .c2 = none
      ∧ (s.chan .c2).pendingHold = none ∧ (s.chan .c2).pendingRetune = none ∧ (s.chan .c2).follower = none
      ∧ s.store.setup = false
      ∧ s.calendar.map (fun e => (e.role, e.partner, e.phase, e.withdrawn, e.limitPassed, inMask e.mask .c2, e.out.get .c2))
        = [(.leader, some 22, some .due, false, false, true, l), (.follower, some 21, none, false, false, true, f)]
      ∧ s.entryAt 21 = s.calendar.head? ∧ s.entryAt 22 = s.calendar.getLast? := by
  simp only [List.mem_cons, Prod.mk.injEq, List.not_mem_nil, or_false] at h
  rcases h with ⟨rfl, rfl, rfl⟩ | ⟨rfl, rfl, rfl⟩ | ⟨rfl, rfl, rfl⟩ <;>
    exact ⟨rfl, calmBy (by decide), rfl, rfl, rfl, by decide, rfl, rfl, by decide, rfl, rfl, rfl, rfl, rfl, rfl, rfl⟩

/-- A withdrawn pair whose last transmission, of the leader or of the follower, the stop key cuts on channel 2. -/
def withdrawnPair (slot : Nat) (l f : ChanOutcome) : State :=
  { only (sendingBulletin slot false true) with calendar := (pair l f).map CalEntry.withdraw }

theorem witness_withdrawn_pair (slot : Nat) (l f : ChanOutcome)
    (h : (slot, l, f) ∈ [(21, ChanOutcome.onAir, ChanOutcome.pending), (22, .sent, .onAir)]) :
    let s := withdrawnPair slot l f
    s.power = true ∧ s.Calm ∧ (s.chan .c2).period = some 0 ∧ (s.chan .c2).state = .sending
      ∧ (s.chan .c2).segment = none ∧ (s.chan .c2).onAir.map OnAir.slot = some slot
      ∧ (s.chan .c2).fetch.body.map BodyReading.complete = some false ∧ (s.chan .c2).stopAtBoundary = true
      ∧ (s.chan .c2).offWaits = false ∧ s.pendingRelay .c2 = none ∧ (s.chan .c2).pendingHold = none
      ∧ (s.chan .c2).pendingRetune = none ∧ (s.chan .c2).follower = none ∧ (∀ d ∈ Chan.all, d ≠ .c2 → s.takesNoPick d)
      ∧ s.calendar.map (fun e => (e.role, e.partner, e.withdrawn, e.mask)) = [(.leader, some 22, true, 0x12),
        (.follower, some 21, true, 0x12)]
      ∧ (∀ e ∈ s.calendar, ∀ d ∈ Chan.all, d ≠ .c2 → e.out.get d ≠ .onAir)
      ∧ s.entryAt 21 = s.calendar.head? ∧ s.entryAt 22 = s.calendar.getLast? := by
  simp only [List.mem_cons, Prod.mk.injEq, List.not_mem_nil, or_false] at h
  rcases h with ⟨rfl, rfl, rfl⟩ | ⟨rfl, rfl, rfl⟩ <;>
    exact ⟨rfl, calmBy (by decide), rfl, rfl, rfl, rfl, by decide, rfl, rfl, by decide, rfl, rfl, rfl,
      fun d _ h => by revert h; cases d <;> unfold State.takesNoPick <;> decide, rfl, by decide, rfl, rfl⟩

/-- R115, R118, R119: the leader's cut fails the follower too, whose outcome the withdrawal had made NOT_USED. -/
theorem test_withdrawn_pair_cut :
    let t := after (.characterBoundary .c2 noBus) (withdrawnPair 21 .onAir .pending)
    (t.chan .c2).state = .held ∧ t.calendar = []
      ∧ t.rack.backlog.map (fun a => (a.slot, a.result, match a.progress with
        | .bulletin _ last _ => some (last.get .c2, last.get .c5)
        | _ => none)) = [(21, .withdrawn, some (.failed, .notUsed)), (22, .withdrawn, some (.failed, .notUsed))] := by
  decide

/-- Two start times at the same distance: the larger guard counts, and a WAITING entry of another channel does not. -/
theorem witness_available :
    ({ station .held with calendar := [entry 31950, { entry 31950 with slot := 22, series := 1 }, { entry 5 with
      mask := 1 }] } : State).available
        .c2 = some 1950
      ∧ (station .held).available .c2 = none := by decide

/-! ## Witnesses: taking, refusing and withdrawing -/

theorem witness_taking_fails : (127 : Nat) < 128 ∧ State.reset.MemoryCanonical
    ∧ Access.take 127 8 ∈ ({ noBus with errors := [.take 127 8] } : Bus).errors := ⟨by decide, rfl, by decide⟩

theorem witness_held_second_retune :
    let s := (docket .sending 8 [(96, 2), (97, 31)]).setChan .c2 (fun ch => { ch with pendingRetune := some (50, 1) })
    Docketed s (some .retune) ∧ ((handed s).chan .c2).pendingRetune.isSome = true
      ∧ ((handed s).chan .c2).offWaits = false
      ∧ ((handed s).chan .c2).state = .sending := ⟨⟨⟨rfl, rfl⟩, calmBy (by decide)⟩, rfl, rfl, rfl⟩

/-- A PRIORITY telex for channel 2 behind an ordinary item on the air and before one that waits. -/
theorem witness_telex_priority :
    let s : State := { docket .held 1 [(96, 2), (97, 1), (100, 100)] with
      telex := [item .onAir, { item .queued with slot := 10 }] }
    Docketed s (some .telex) ∧ (handed s).takesNoPick .c2 ∧ telexRefusal (handed s) ((handed s).telexDocket 0) = none
      ∧ Chan.ofNumber ((handed s).slotField 0 32 1) = some .c2 ∧ (handed s).slotField 0 33 1 = 1
      ∧ (handed s).telex.length < 64 ∧ ((handed s).queue .c2).length < 16 :=
  ⟨⟨⟨rfl, rfl⟩, calmBy (by decide)⟩, noPickBy (by decide) .c2, by decide, by decide, by decide, by decide, by decide⟩

theorem witness_refused_dockets :
    Docketed (docket .held 5 [(96, 9)]) (some .withdraw) ∧ Docketed (docket .held 14 []) (some .setupExit)
    ∧ (handed (docket .held 14 [])).store.setup = false
    ∧ Docketed (docket .held 15 [(96, 0xFF), (97, 0x0F)]) (some .settingsRead)
    ∧ (handed (docket .held 15 [(96, 0xFF), (97, 0x0F)])).slotField 0 32 2 = 4095
    ∧ Docketed (docket .held 11 [(96, 0), (97, 0x5C), (98, 0x26), (99, 5)]) (some .setclock)
    ∧ (handed (docket .held 11 [(96, 0), (97, 0x5C), (98, 0x26), (99, 5)])).slotField 0 32 4 = 86400000 :=
  ⟨⟨⟨rfl, rfl⟩, calmBy (by decide)⟩, ⟨⟨rfl, rfl⟩, calmBy (by decide)⟩, rfl, ⟨⟨rfl, rfl⟩, calmBy (by decide)⟩, by decide,
    ⟨⟨rfl, rfl⟩, calmBy (by decide)⟩, by decide⟩

theorem witness_refused_commit :
    let s : State := { docket .held 17 [] with store := { State.reset.store with protection := .fixed } }
    Docketed s (some .commit) ∧ (handed s).store.commit = none ∧ (handed s).store.protection = .fixed :=
  ⟨⟨⟨rfl, rfl⟩, calmBy (by decide)⟩, rfl, rfl⟩

theorem witness_commit_keyed :
    let s : State := { docket .held 17 [(96, 1), (97, 1), (98, 1), (99, 1), (100, 1), (101, 1), (102, 1), (103, 1)] with
      store := { State.reset.store with protection := .keyed, key := List.replicate 8 1 } }
    Docketed s (some .commit) ∧ (handed s).store.commit = none ∧ (handed s).store.protection = .keyed
      ∧ (handed s).slotBytes 0 32 8 = (handed s).store.key :=
  ⟨⟨⟨rfl, rfl⟩, calmBy (by decide)⟩, rfl, rfl, by decide⟩

theorem witness_refused_clearfault :
    let s := (docket .held 9 [(96, 4)]).setChan .c4 (fun _ =>
      { calmChan .faulted with line := { LineSection.powerOn with alarm := ⟨some true, 9⟩ } })
    Docketed s (some .clearfault) ∧ Chan.ofNumber ((handed s).slotField 0 32 1) = some .c4
      ∧ ((handed s).chan .c4).state = .faulted ∧ ((handed s).chan .c4).line.alarm.level = some true :=
  ⟨⟨⟨rfl, rfl⟩, calmBy (by decide)⟩, by decide, rfl, rfl⟩

/-- The part with channel 3 switched OFF. -/
def offStation : State :=
  { station .held with store := { State.reset.store with
      working := { Image.factory with chan := Image.factory.chan.set .c3 { ChanSettings.factory with
        enabled := false } } } }

/-- A telex docket's fields, with a channel, lengths and a first page. -/
def telexFields (channel call answer page : Nat) : TelexDocket :=
  { (telexDocket .held).telexDocket 0 with
    channel := channel, callLength := call, answerLength := answer, firstPage := page }

theorem witness_telex_causes : (offStation.store.working.chan.get .c3).enabled = false
    ∧ (offStation.store.working.chan.get .c2).enabled = true ∧ (offStation.chan .c2).state ≠ .lockedOut
    ∧ ((station .lockedOut).chan .c2).state = .lockedOut
    ∧ telexRefusal offStation (telexFields 3 0 0 100) = some .channelOff
    ∧ telexRefusal offStation (telexFields 0 9 0 0) = some .badChannel
    ∧ telexRefusal offStation (telexFields 2 8 20 4095) = none
    ∧ telexRefusal offStation (telexFields 2 8 0 100) = some .badText
    ∧ telexRefusal offStation (telexFields 2 9 1 100) = some .badText := by decide

/-- Chapter 6.4's docket, altered in one field after another, meets each cause of R101 in turn. -/
theorem witness_bulletin_causes :
    let s := { bulletinAt 24000000 with calendar := [{ entry 25200000 with mask := 0x12 }] }
    let d := s.bulletinDocket 0
    bulletinRefusal (station .held) d = some .clockNotSet
    ∧ bulletinRefusal s { d with series := 16 } = some .badSeries
    ∧ bulletinRefusal s { d with intervalMin := 0 } = some .badTime
    ∧ bulletinRefusal s { d with toleranceMin := 61 } = some .badTime
    ∧ bulletinRefusal s { d with mask := 0x40 } = some .badChannel
    ∧ bulletinRefusal s { d with partner := some 21, toleranceMin := 61, repetitions := 2 } = some .badPair
    ∧ bulletinRefusal s { d with partner := some 21, toleranceMin := 61 } = none
    ∧ bulletinRefusal s d = none := by decide

theorem witness_chain : ({ station .held with mem := pageHundred } : State).pageHeader 100
      = { state := 1, count := 2, next := 65535 }
    ∧ intakeWalk noBus { station .held with mem := pageHundred } 64 100 [] = .good
    ∧ intakeWalk noBus { station .held with mem := pageHundred } 64 101 [] = .badText := by decide

theorem witness_bad_chain :
    let fields : List Host.Cell := [(97, 0x12), (98, 10), (99, 3), (100, 120), (102, 101), (104, 0x80), (105, 0x85),
      (106, 0x80), (107, 1), (108, 255)]
    let b := atTime 24000000 (docket .held 2 fields)
    let u := docket .held 3 [(96, 6), (98, 101)]
    Docketed b (some .bulletin) ∧ bulletinRefusal (handed b) ((handed b).bulletinDocket 0) = none
      ∧ (handed b).calendar.length < 48 ∧ (handed b).slotField 0 38 2 = 101
      ∧ intakeWalk noBus (handed b) 64 101 [] = .badText
      ∧ Docketed u (some .urgent) ∧ maskChans (priorityMask (handed u) 0) ≠ [] ∧ (handed u).slotField 0 34 2 = 101
      ∧ intakeWalk noBus (handed u) 64 101 [] = .badText
      ∧ u.Hands { noBus with errors := [.page 101] } 0 (some .urgent) (handed u)
      ∧ intakeWalk { noBus with errors := [.page 101] } (handed u) 64 101 [] = .busFault :=
  ⟨⟨⟨rfl, rfl⟩, calmBy (by decide)⟩, by decide, by decide, by decide, by decide, ⟨⟨rfl, rfl⟩, calmBy (by decide)⟩,
    by decide, by decide, by decide, ⟨rfl, rfl⟩, by decide⟩

theorem witness_distress_hang (x : ChState) (h : x = .hang ∨ x = .sending) :
    let s := priorityDocket x 4
    Docketed s (some .distress) ∧ maskChans (priorityMask (handed s) 0) = [.c2, .c3]
      ∧ (∀ c, ((handed s).chan c).state = x) ∧ (handed s).priority.length < 8
      ∧ intakeWalk noBus (handed s) 64 ((handed s).slotField 0 34 2) [] = .good := by
  rcases h with
    rfl | rfl <;> exact ⟨⟨⟨rfl, rfl⟩, calmBy (by decide)⟩, by decide, each (by decide), by decide, by decide⟩

theorem witness_distress_fails (x : ChState) (h : x = .held ∨ x = .lockedOut ∨ x = .faulted) :
    let s := priorityDocket x 4
    Docketed s (some .distress) ∧ (∀ c, ((handed s).chan c).state = x)
      ∧ (∀ c, ((handed s).store.working.chan.get c).reduced = false) := by
  rcases h with rfl | rfl | rfl <;> exact ⟨⟨⟨rfl, rfl⟩, calmBy (by decide)⟩, each (by decide), each (by decide)⟩

theorem witness_distress_idle :
    let s := docket .idle 4 ([(96, 2), (98, 100)] ++ pageHundred)
    Docketed s (some .distress) ∧ maskChans (priorityMask (handed s) 0) = [.c2] ∧ ((handed s).chan .c2).state = .idle
      ∧ (handed s).pendingRelay .c2 = none ∧ ((handed s).store.working.chan.get .c2).lead ≠ 0
      ∧ (handed s).priority.length < 8
      ∧ intakeWalk noBus (handed s) 64 ((handed s).slotField 0 34 2) [] = .good :=
  ⟨⟨⟨rfl, rfl⟩, calmBy (by decide)⟩, by decide, rfl, rfl, by decide, by decide, by decide⟩

theorem witness_withdraw_beginning (x : ChState) (i : TelexState)
    (h : (x, i) ∈ [(ChState.keying, TelexState.calling), (.calling, .calling), (.keying, .onAir), (.closing, .onAir)]) :
    let s := withdrawItem { sendingText with state := x } i
    Docketed s (some .withdraw) ∧ (handed s).telexAt 9 = some (item i) ∧ ((handed s).chan .c2).state = x
      ∧ (handed s).takesNoPick .c2 ∧ (handed s).NothingBehind .c2 (item i) ∧ ((handed s).chan .c2).item.hang ≠ 0 := by
  simp only [List.mem_cons, Prod.mk.injEq, List.not_mem_nil, or_false] at h
  rcases h with h | h | h | h <;> obtain ⟨rfl, rfl⟩ := h <;>
    exact ⟨⟨⟨rfl, rfl⟩, calmBy (by decide)⟩, rfl, rfl, noPickBy (by decide) .c2, behindBy (by decide) (by decide), by decide⟩

/-- A WITHDRAW of slot 21 while channel 2 is in the lookahead wait, with a calendar. -/
def withdrawEntries (l : List CalEntry) : State :=
  { (docket .held 5 [(96, 21)]).setChan .c2 (fun _ => waitingChan) with telex := [item .onAir], calendar := l }

theorem witness_withdraw_bulletin (e : CalEntry)
    (h : e ∈ [entry 0, { entry 0 with withdrawn := true }, { limitEntry .onAir 3 with passing := false }]) :
    let s := withdrawEntries [e]
    Docketed s (some .withdraw) ∧ (∀ c, (handed s).takesNoPick c) ∧ (handed s).slotField 0 32 1 = 21
      ∧ (handed s).telexAt 21 = none ∧ (handed s).entryAt 21 = some e ∧ e.role = .single
      ∧ inMask e.mask .c2 = true ∧ ((handed s).chan .c2).waitOpen = true
      ∧ ((∀ c ∈ Chan.all, e.out.get c ≠ .onAir) ↔ e.phase = some .waiting) := by
  simp only [List.mem_cons, List.not_mem_nil, or_false] at h
  rcases h with rfl | rfl | rfl <;>
    exact ⟨⟨⟨rfl, rfl⟩, calmBy (by decide)⟩, noPickBy (by decide), by decide, by decide, rfl, rfl, by decide, by decide,
      by decide⟩

theorem witness_withdraw_pair :
    let s := withdrawEntries (pair .pending .pending)
    Docketed s (some .withdraw) ∧ (∀ c, (handed s).takesNoPick c)
      ∧ (handed s).entryAt 21 = (pair .pending .pending).head?
      ∧ (handed s).entryAt 22 = (pair .pending .pending).getLast?
      ∧ (∀ e ∈ pair .pending .pending, e.withdrawn = false ∧ ∀ c ∈ Chan.all, e.out.get c ≠ .onAir) :=
  ⟨⟨⟨rfl, rfl⟩, calmBy (by decide)⟩, noPickBy (by decide), rfl, rfl, by decide⟩

/-! ## Witnesses: picks -/

/-- What waits for channel 2: the Priority List, the calendar, the queue. -/
def traffic (p : List PrioEntry) (k : List CalEntry) (q : List TelexItem) (s : State) : State :=
  { s with priority := p, calendar := k, telex := q }

/-- A RELEASE of channel 2, which is HELD with a reading and a pending RETUNE as given. -/
def releasing (r : Option Reading) (n : Option (Nat × Nat)) : State :=
  (docket .held 7 [(96, 2)]).setChan .c2 (fun ch =>
    { ch with pendingRetune := n, fetch := { ch.fetch with reading := r } })

/-- The reading of a head item whose first line is settled. -/
def headReading : Reading := { settledReading false with first := true }

/-- One line for each clause: what waits, and what of it the pick comes to first. -/
theorem witness_pick_idle (r : Option Reading) (n : Option (Nat × Nat)) (p : List PrioEntry) (k : List CalEntry)
    (q : List TelexItem) (h : (r, n, p, k, q) ∈
      [(none, some (50, 3), [prio true .pending], [], []), (none, some (50, 3), [prio false .pending], [], []),
       (none, none, [prio false .pending], [{ entry 0 with phase := some .due }], [item .queued]),
       (none, none, [], [{ entry 0 with phase := some .due }], [item .queued]),
       (none, none, [], [], [item .interrupted]), (some headReading, none, [], [entry 33600], [shipItem .interrupted]),
       (some headReading, none, [], [entry 30000], [item .queued]), (some headReading, none, [], [], [item .queued])]) :
    let s := traffic p k q (releasing r n)
    Docketed s (some .release) ∧ Chan.ofNumber ((handed s).slotField 0 32 1) = some .c2
      ∧ ((handed s).chan .c2).state = .held ∧ ((handed s).chan .c2).readyView = true ∧ (handed s).store.setup = false
      ∧ ((handed s).chan .c2).pendingHold = none ∧ ((handed s).chan .c2).follower = none
      ∧ ((handed s).store.working.chan.get .c2).lead ≠ 0
      ∧ (handed s).pendingRelay .c2 = p.find? PrioEntry.distress ∧ ((handed s).chan .c2).pendingRetune = n
      ∧ (handed s).waitingUrgent .c2 = p.find? (fun e => !e.distress)
      ∧ (handed s).dueEntry .c2 = k.find? (fun e => decide (e.phase = some .due)) ∧ (handed s).head .c2 = q.head?
      ∧ ((handed s).chan .c2).fetch.reading = r := by
  simp only [List.mem_cons, Prod.mk.injEq, List.not_mem_nil, or_false] at h
  rcases h with h | h | h | h | h | h | h | h <;> obtain ⟨rfl, rfl, rfl, rfl, rfl⟩ := h <;>
    exact ⟨⟨⟨rfl, rfl⟩, calmBy (by decide)⟩, by decide, rfl, rfl, rfl, rfl, rfl, by decide, by decide, rfl, by decide,
      by decide, by decide, rfl⟩

/-- The needs of the items above against A, at the boundary: 2500 in IDLE and 2100 in HANG for a line of two codes. -/
theorem witness_pick_needs :
    startNeed Image.factory .c2 false (item .queued) false 2 false = 2500
    ∧ startNeed Image.factory .c2 true (item .queued) false 2 false = 2100
    ∧ ({ station .held with calendar := [entry 32500] } : State).available .c2 = some 2500
    ∧ ({ station .held with calendar := [entry 32499] } : State).available .c2 = some 2499
    ∧ ({ station .held with calendar := [entry 32100] } : State).available .c2 = some 2100
    ∧ ({ station .held with calendar := [entry 32099] } : State).available .c2 = some 2099 := by decide

/-- Channel 2 in HANG at a character boundary at which a pick is to be made. -/
def pickingChan (r : Option Reading) (m : Option Nat) (hold : Option Nat) (n : Option (Nat × Nat)) : Channel :=
  { calmChan .hang with
    pick := .atBoundary, period := some 0, hang := some 40, follower := m, pendingHold := hold, pendingRetune := n
    fetch := { Fetcher.reset with reading := r } }

theorem witness_pick_hang (m hold : Option Nat) (n : Option (Nat × Nat)) (p : List PrioEntry) (k : List CalEntry)
    (q : List TelexItem) (h : (m, hold, n, p, k, q) ∈
      [(none, some 7, none, [prio true .pending], [], []), (some 21, some 7, none, [], pair .sent .pending, []),
       (some 21, some 7, some (8, 3), [], pair .sent .pending, []), (none, none, some (8, 3), [], [], [item .queued]),
       (none, some 7, none, [prio false .pending], [], []), (none, none, none, [prio false .pending], [], [item .queued]),
       (none, none, none, [], [{ entry 0 with phase := some .due }], [item .queued]),
       (none, none, none, [], [entry 32100], [item .queued]), (none, none, none, [], [], [shipItem .interrupted]),
       (none, none, none, [], [entry 32099], [item .queued])]) :
    let s := traffic p k q (only (pickingChan (some headReading) m hold n))
    s.power = true ∧ s.Calm ∧ (s.chan .c2).state = .hang ∧ (s.chan .c2).pick = .atBoundary
      ∧ (s.chan .c2).period = some 0 ∧ (s.chan .c2).onAir = none ∧ (s.chan .c2).offWaits = false
      ∧ (s.chan .c2).stopAtBoundary = false ∧ s.store.setup = false ∧ (s.chan .c2).item.hang ≠ 0
      ∧ s.pendingRelay .c2 = p.find? PrioEntry.distress ∧ (s.chan .c2).follower = m
      ∧ (s.chan .c2).pendingHold = hold ∧ (s.chan .c2).pendingRetune = n
      ∧ (m = some 21 → s.markedFollower .c2 = s.entryAt 22 ∧ (s.entryAt 22).map CalEntry.slot = some 22)
      ∧ s.waitingUrgent .c2 = p.find? (fun e => !e.distress)
      ∧ (m = none → s.dueEntry .c2 = k.find? (fun e => decide (e.phase = some .due))) ∧ s.head .c2 = q.head?
      ∧ (s.chan .c2).fetch.reading = some headReading ∧ (∀ i ∈ q, s.telexAt i.slot = some i) := by
  simp only [List.mem_cons, Prod.mk.injEq, List.not_mem_nil, or_false] at h
  rcases h with h | h | h | h | h | h | h | h | h | h <;> obtain ⟨rfl, rfl, rfl, rfl, rfl, rfl⟩ := h <;>
    exact ⟨rfl, calmBy (by decide), rfl, rfl, rfl, rfl, rfl, rfl, rfl, by decide, by decide, rfl, rfl, rfl, by decide,
      by decide, by decide, by decide, rfl, by decide⟩

/-- A collective INTERRUPTED head that fits, with the resume notice of the factory image or with none, its line empty in
the one case; and a signoff to follow that line. -/
theorem witness_pick_hang_resumed (n : Nat) (h : n = 0 ∨ n = 2) :
    let rd := { settledReading true with first := true, line := [] }
    let s0 := traffic [] [] [item .interrupted] (only (pickingChan (some rd) none none none))
    let s : State := { s0 with store := { s0.store with working := { s0.store.working with resumeLength := n } } }
    s.power = true ∧ s.Calm ∧ s.head .c2 = some (item .interrupted) ∧ s.telexAt 9 = some (item .interrupted)
      ∧ (item .interrupted).callCode = [] ∧ s.available .c2 = none ∧ s.store.working.resume.length = n
      ∧ (s.chan .c2).fetch.reading = some rd ∧ s.store.working.signoff.head?.isSome = true := by
  rcases h with rfl | rfl <;> exact ⟨rfl, calmBy (by decide), rfl, rfl, rfl, by decide, by decide, rfl, by decide⟩

/-- A pending RETUNE while the follower mark stands. -/
theorem witness_pick_hang_marked_retune :
    let s := traffic [] (pair .sent .pending) [] (only (pickingChan none (some 21) none (some (8, 3))))
    s.power = true ∧ s.Calm ∧ s.pendingRelay .c2 = none ∧ (s.chan .c2).follower = some 21
      ∧ s.entryAt 21 = (pair .sent .pending).head? ∧ (s.entryAt 21).map CalEntry.role = some .leader
      ∧ (s.entryAt 21).map CalEntry.partner = some (some 22) ∧ (s.entryAt 22).map CalEntry.partner = some (some 21)
      ∧ (s.entryAt 21).map CalEntry.limitPassed = some false ∧ inMask 0x12 .c2 = true
      ∧ (s.entryAt 22).map (fun e => e.out.get .c2) = some .pending ∧ (s.chan .c2).pendingRetune = some (8, 3) :=
  ⟨rfl, calmBy (by decide), rfl, rfl, rfl, rfl, rfl, rfl, rfl, by decide, rfl, rfl⟩

/-! ## Witnesses: settings -/

theorem witness_exit_closes :
    let s := leavingSetup.setChan .c2 (fun ch =>
      { ch with pendingHold := some 50, pendingRetune := some (51, 3), retune := some 52 })
    Docketed s (some .setupExit) ∧ (handed s).store.setup = true
      ∧ (handed s).store.staged.isSome = true ∧ (∀ c, ((handed s).chan c).onAir = none)
      ∧ (∀ c, (handed s).takesNoPick c)
      ∧ (∀ c ∈ Chan.all, ((handed s).store.staged.map (fun i => (i.chan.get c).enabled)) = some (decide (c ≠ .c2))
          ∧ ((handed s).store.working.chan.get c).enabled = true)
      ∧ ((handed s).chan .c2).state ≠ .lockedOut ∧ ((handed s).chan .c2).pendingRetune = some (51, 3) :=
  ⟨⟨⟨rfl, rfl⟩, calmBy (by decide)⟩, rfl, rfl, each (by decide), noPickBy (by decide), by decide, by decide, rfl⟩

theorem witness_settings_bus :
    let r := docket .held 15 [(96, 1)]
    let w : State := { docket .held 16 [(96, 1)] with store := { State.reset.store with setup := true } }
    r.Hands { noBus with errors := [.imageWrite 0] } 0 (some .settingsRead) (handed r)
      ∧ (handed r).slotField 0 32 2 = 1
      ∧ w.Hands { noBus with errors := [.imageRead] } 0 (some .settingsWrite) (handed w)
      ∧ (handed w).slotField 0 32 2 = 1 :=
  ⟨⟨rfl, rfl⟩, by decide, ⟨rfl, rfl⟩, by decide⟩

theorem witness_clamp : (List.replicate 512 (0xFF : Byte)).length = 512
    ∧ (imageOfBytes (List.replicate 512 0xFF)).sweepInterval = 200
    ∧ (imageOfBytes (List.replicate 512 0)).sweepInterval = 5 := by
  refine ⟨List.length_replicate, ?_, ?_⟩ <;> decide

/-! ## Witnesses: boundaries with A bounded -/

/-- The next line needs (2 + 12) × 150 = 2100: it fits A = 2100 and not A = 2099. -/
theorem witness_break_fit (start : Nat) (h : start = 32100 ∨ start = 32099) :
    let s : State := { airing { sendingText with fetch := { Fetcher.reset with
      reading := some (settledReading false) } }
      (item .onAir) with calendar := [entry start] }
    s.power = true ∧ s.Calm ∧ s.Undisturbed .c2 ∧ s.telexOn .c2 = some (item .onAir) ∧ s.preempted .c2 = false
      ∧ (s.chan .c2).rest = [] ∧ (s.chan .c2).lineFinal = false ∧ (s.chan .c2).decided = none
      ∧ ((settledReading false).line.length + (s.chan .c2).item.cut.length) * (s.chan .c2).item.period = 2100
      ∧ s.available .c2 = some (if start = 32100 then 2100 else 2099) := by
  rcases h with rfl | rfl <;>
    exact ⟨rfl, calmBy (by decide), undisturbedBy (by decide), rfl, by decide, rfl, rfl, rfl, by decide, by decide⟩

/-- The lookahead is not settled: the wait begins at A = 1951, and A = 1950 cuts. -/
theorem witness_break_wait (x : ReadCondition) (h : x = .inProgress ∨ x = .blocked) :
    let s (start : Nat) : State := { airing { sendingText with
      fetch := { Fetcher.reset with reading := some { settledReading false with
        condition := x } } } (item .onAir) with calendar := [entry start] }
    (s 0).Calm ∧ (s 31951).preempted .c2 = false ∧ (s 31951).available .c2 = some 1951
      ∧ (s 31950).available .c2 = some 1950
      ∧ (((s 0).chan .c2).item.cut.length + 1) * ((s 0).chan .c2).item.period = 1950 := by
  rcases h with rfl | rfl <;> exact ⟨calmBy (by decide), by decide, by decide, by decide, by decide⟩

/-- After the signoff of an item with a call: the closing check needs 150 + Tab. -/
theorem witness_closing (start : Nat) (h : start = 38150 ∨ start = 38149) :
    let s : State := { airing { sendingText with segment := some .signoff } (shipItem .onAir) with
      calendar := [entry start] }
    s.power = true ∧ s.Calm ∧ s.NothingBehind .c2 (shipItem .onAir) ∧ (shipItem .onAir).callCode ≠ []
      ∧ (s.chan .c2).item.period + s.store.working.answerbackSeconds * 1000 = 8150
      ∧ s.available .c2 = some (if start = 38150 then 8150 else 8149) := by
  rcases h with rfl | rfl <;>
    exact ⟨rfl, calmBy (by decide), behindBy (by decide) (by decide), by decide, by decide, by decide⟩

theorem witness_relay_fails :
    let b : BodyReading := { pages := [bodyPage [0x42]], request := none, walked := 1, failed := true }
    let s : State := { only { relaying .sending [] with fetch := { Fetcher.reset with body := some b } } with
      priority := [prio true .onAir] }
    s.power = true ∧ s.Calm ∧ (s.chan .c2).fetch.body = some b ∧ b.complete = false ∧ b.failed = true
      ∧ (s.chan .c2).segment = none ∧ (s.chan .c2).offWaits = false ∧ (s.chan .c2).stopAtBoundary = false :=
  ⟨rfl, calmBy (by decide), rfl, by decide, rfl, rfl, rfl, rfl⟩

/-! ## Witnesses: the lines -/

/-- Channel 2 at a line check, its READY run one check short of the alarm delay at a level. -/
def readyShort (x : ChState) (level : Bool) : Channel :=
  { calmChan x with line := { LineSection.powerOn with check := some 0, ready := ⟨some level, 4⟩ } }

theorem witness_ready_report (x : ChState) (level : Bool)
    (h : (x, level) ∈ [(ChState.idle, false), (.unready, true), (.held, true), (.held, false)]) :
    let s := only (readyShort x level)
    s.power = true ∧ s.Calm ∧ (s.store.working.chan.get .c2).aux ≠ .stopKey ∧ (s.chan .c2).line.check = some 0
      ∧ (s.chan .c2).line.ready = { level := some level, count := s.store.working.alarmDelay - 1 }
      ∧ 1 ≤ s.store.working.alarmDelay ∧ s.store.working.alarmDelay ≤ 50
      ∧ (s.chan .c2).line.readyDeclared = false ∧ (s.chan .c2).state = x ∧ s.NothingFor .c2 := by
  simp only [List.mem_cons, Prod.mk.injEq, List.not_mem_nil, or_false] at h
  rcases h with h | h | h | h <;> obtain ⟨rfl, rfl⟩ := h <;>
    exact ⟨rfl, calmBy (by decide), by decide, rfl, by decide, by decide, by decide, rfl, rfl, nothingBy (by decide)⟩

/-- Channel 2 RETUNING for the docket of slot 7, with its count of like checks. -/
def tuning (seen : Bool) (n : Nat) (held : Bool) (hold : Option Nat) : Channel :=
  { calmChan .retuning with
    retune := some 7, absenceSeen := seen, readyCount := n, returnHeld := held, pendingHold := hold
    line := { LineSection.powerOn with check := some 0 } }

theorem witness_retune_checks (seen : Bool) (n : Nat) (held : Bool) (hold : Option Nat)
    (h : (seen, n, held, hold) ∈ [(false, 3, false, none), (false, 4, false, none), (true, 4, true, none),
      (true, 4, false, some 8), (true, 4, false, none)]) :
    let s := only (tuning seen n held hold)
    s.power = true ∧ s.Calm ∧ (s.chan .c2).state = .retuning ∧ (s.chan .c2).retune = some 7
      ∧ (s.store.working.alarmDelay ≤ (s.chan .c2).readyCount + 1 ↔ n = 4) ∧ (s.chan .c2).absenceSeen = seen
      ∧ (s.chan .c2).pendingRetune = none ∧ (s.chan .c2).stopPending = false ∧ (s.chan .c2).returnHeld = held
      ∧ (s.chan .c2).pendingHold = hold ∧ (hold = none → s.NothingFor .c2) := by
  simp only [List.mem_cons, Prod.mk.injEq, List.not_mem_nil, or_false] at h
  rcases h with ⟨rfl, rfl, rfl, rfl⟩ | ⟨rfl, rfl, rfl, rfl⟩ | ⟨rfl, rfl, rfl, rfl⟩ | ⟨rfl, rfl, rfl, rfl⟩
    | ⟨rfl, rfl, rfl, rfl⟩
  · exact ⟨rfl, calmBy (by decide), rfl, rfl, by decide, rfl, rfl, rfl, rfl, rfl, fun _ => nothingBy (by decide)⟩
  · exact ⟨rfl, calmBy (by decide), rfl, rfl, by decide, rfl, rfl, rfl, rfl, rfl, fun _ => nothingBy (by decide)⟩
  · exact ⟨rfl, calmBy (by decide), rfl, rfl, by decide, rfl, rfl, rfl, rfl, rfl, fun _ => nothingBy (by decide)⟩
  · exact ⟨rfl, calmBy (by decide), rfl, rfl, by decide, rfl, rfl, rfl, rfl, rfl, fun e => by cases e⟩
  · exact ⟨rfl, calmBy (by decide), rfl, rfl, by decide, rfl, rfl, rfl, rfl, rfl, fun _ => nothingBy (by decide)⟩

/-- Channel 2 as given, its AUX input a stop key. -/
def stopKeyed (ch : Channel) : State :=
  { only ch with store := { State.reset.store with
      working := { Image.factory with chan := Image.factory.chan.set .c2 { ChanSettings.factory with
        aux := .stopKey, edge := .both } } } }

/-- A channel at a line check with nothing declared to change: READY present, ALARM absent, the AUX level known. -/
def auxAt (ch : Channel) (level last : Option Bool) : Channel :=
  { ch with line := { LineSection.powerOn with
      check := some 0, ready := ⟨some true, 7⟩, readyDeclared := true, auxLevel := level, auxLast := last } }

theorem witness_stop_edge (x : ChState) (level last : Option Bool)
    (h : x ∈ [ChState.idle, .unready, .sending, .retuning, .held]
      ∧ (level, last) ∈ [(some false, some true), (none, none), (some false, some false)]) :
    let s := stopKeyed (auxAt (calmChan x) level last)
    s.power = true ∧ s.Calm ∧ (s.store.working.chan.get .c2).aux = .stopKey
      ∧ (s.store.working.chan.get .c2).edge = .both ∧ (s.chan .c2).line.check = some 0
      ∧ (s.chan .c2).line.readyDeclared = true ∧ (s.chan .c2).line.ready.level = some true
      ∧ (s.chan .c2).state = x ∧ ((s.chan .c2).key = true ↔ x = .sending) ∧ (s.chan .c2).absenceSeen = false
      ∧ (s.chan .c2).offWaits = false ∧ s.pendingRelay .c2 = none ∧ (s.chan .c2).follower = none := by
  simp only [List.mem_cons, Prod.mk.injEq, List.not_mem_nil, or_false] at h
  obtain ⟨hx, hl⟩ := h
  rcases hl with ⟨rfl, rfl⟩ | ⟨rfl, rfl⟩ | ⟨rfl, rfl⟩ <;> rcases hx with rfl | rfl | rfl | rfl | rfl <;>
    exact ⟨rfl, calmBy (by decide), rfl, rfl, rfl, rfl, rfl, rfl, by decide, rfl, rfl, rfl, rfl⟩

theorem witness_not_ready :
    let s := airing { sendingText with line := (readyShort .sending false).line } (item .onAir)
    s.power = true ∧ s.Calm ∧ (s.store.working.chan.get .c2).aux ≠ .stopKey ∧ s.telexOn .c2 = some (item .onAir)
      ∧ (s.chan .c2).line.ready = { level := some false, count := s.store.working.alarmDelay - 1 }
      ∧ (s.chan .c2).line.readyDeclared = false ∧ (s.chan .c2).fixed = none ∧ (s.chan .c2).decided = none
      ∧ (s.chan .c2).line.faults < 2 ∧ s.pendingRelay .c2 = none :=
  ⟨rfl, calmBy (by decide), by decide, rfl, by decide, rfl, rfl, rfl, by decide, rfl⟩

/-- A channel at a line check, its ALARM run one check short of the alarm delay, with so many faults counted. -/
def alarmShort (ch : Channel) (faults : Nat) : Channel :=
  { ch with line := { LineSection.powerOn with check := some 0, alarm := ⟨some true, 4⟩, faults := faults } }

theorem witness_third_fault (x : ChState) (h : x = .idle ∨ x = .held) :
    let s := only (alarmShort { calmChan x with pendingRetune := some (50, 3), pendingHold := some 51 } 2)
    s.power = true ∧ s.Calm ∧ (s.chan .c2).state = x ∧ (s.chan .c2).line.faults = 2
      ∧ (s.chan .c2).line.alarm = { level := some true, count := s.store.working.alarmDelay - 1 }
      ∧ (s.chan .c2).line.quiet = none ∧ (s.chan .c2).onAir = none ∧ s.pendingRelay .c2 = none := by
  rcases h with rfl | rfl <;> exact ⟨rfl, calmBy (by decide), rfl, rfl, by decide, rfl, rfl, rfl⟩

/-- Channel 2 with relays at reduced power, or without. -/
def reducedPower (reduced : Bool) (s : State) : State :=
  { s with store := { State.reset.store with
      working := { Image.factory with chan := Image.factory.chan.set .c2 { ChanSettings.factory with
        reduced := reduced } } } }

/-- A relay of slot 3 on the air on channel 2 and PENDING on channel 3. -/
def relayOnTwo : PrioEntry := { prio true .onAir with mask := 6, out := (prio true .onAir).out.set .c3 .pending }

theorem witness_relay_onset (reduced : Bool) (ch : Channel)
    (h : ch ∈ [alarmShort (relaying .sending [bodyPage [0x42]]) 0,
      { relaying .faulted [bodyPage [0x42]] with line := (readyShort .faulted false).line }]) :
    let s := traffic [relayOnTwo] [] [] (reducedPower reduced (only ch))
    s.power = true ∧ s.Calm ∧ (s.store.working.chan.get .c2).aux ≠ .stopKey
      ∧ (s.store.working.chan.get .c2).reduced = reduced ∧ (s.chan .c2).line.check = some 0
      ∧ (s.chan .c2).onAir.map OnAir.slot = some 3 ∧ s.prioAt 3 = some relayOnTwo ∧ relayOnTwo.out.get .c3 = .pending
      ∧ s.pendingRelay .c2 = none ∧ (s.chan .c2).line.faults < 2 ∧ s.store.working.alarmDelay = 5
      ∧ ((s.chan .c2).state = .sending ∧ (s.chan .c2).line.alarm = ⟨some true, 4⟩
        ∨ (s.chan .c2).state = .faulted ∧ (s.chan .c2).line.ready = ⟨some false, 4⟩) := by
  simp only [List.mem_cons, List.not_mem_nil, or_false] at h
  rcases h with rfl | rfl <;> cases reduced <;>
    exact ⟨rfl, calmBy (by decide), by decide, rfl, rfl, rfl, rfl, rfl, by decide, by decide, rfl, by decide⟩

theorem witness_reduced_ends (recovery : Bool) (p : List PrioEntry)
    (h : p = [prio true .onAir] ∨ p = [prio true .onAir, { prio true .pending with slot := 4 }]) :
    let s := traffic p [] [] (only { relaying .faulted [bodyPage []] with recoveryPending := recovery })
    s.power = true ∧ s.Calm ∧ (s.chan .c2).state = .faulted ∧ (s.chan .c2).period = some 0
      ∧ (s.chan .c2).fetch.body.map BodyReading.complete = some true ∧ s.prioAt 3 = some (prio true .onAir)
      ∧ maskChans (prio true .onAir).mask = [.c2] ∧ (s.chan .c2).recoveryPending = recovery
      ∧ (p.length = 1 → s.pendingRelay .c2 = none ∧ s.NothingFor .c2)
      ∧ (p.length = 2 → s.pendingRelay .c2 = some { prio true .pending with slot := 4 }
          ∧ s.prioAt 4 = some { prio true .pending with slot := 4 }) := by
  rcases h with rfl | rfl <;> cases recovery <;>
    exact ⟨rfl, calmBy (by decide), rfl, rfl, by decide, rfl, by decide, rfl, fun h =>
      by first | exact ⟨by decide, nothingBy (by decide)⟩ | exact absurd h (by decide), by decide⟩

theorem witness_reduced_intake :
    let s := reducedPower true ((docket .held 4 ([(96, 2), (98, 100)] ++ pageHundred)).setChan .c2 (fun _ =>
      { calmChan .faulted with line := { LineSection.powerOn with lastKind := .alarm } }))
    Docketed s (some .distress) ∧ maskChans (priorityMask (handed s) 0) = [.c2] ∧ (handed s).priority.length < 8
      ∧ intakeWalk noBus (handed s) 64 ((handed s).slotField 0 34 2) [] = .good
      ∧ ((handed s).chan .c2).state = .faulted ∧ ((handed s).store.working.chan.get .c2).reduced = true
      ∧ ((handed s).chan .c2).line.lastKind = .alarm ∧ ((handed s).chan .c2).onAir = none
      ∧ ((handed s).store.working.chan.get .c2).lead ≠ 0 :=
  ⟨⟨⟨rfl, rfl⟩, calmBy (by decide)⟩, by decide, by decide, by decide, rfl, rfl, rfl, rfl, by decide⟩

/-! ## Witnesses: an attempt that does not fit, and bad pages -/

/-- The further attempt of a resumed item needs as much as the start test without U. -/
theorem witness_attempt_fit (start : Nat) (h : start = 30000 ∨ start = 60000) :
    let s : State := { airing { listening .calling .opening 0 with
      call := { (listening .calling .opening 0).call with resumed := some true } } (shipItem .calling) with
        calendar := [entry start] }
    s.power = true ∧ s.Calm ∧ s.NothingBehind .c2 (shipItem .calling) ∧ (s.chan .c2).call.condition = .listen
      ∧ (s.chan .c2).call.attempts + 1 < s.store.working.callAttempts ∧ s.trafficSource .c2 = false
      ∧ (s.chan .c2).fetch.reading = some (settledReading true) ∧ s.store.setup = false
      ∧ fits (startNeed s.store.working .c2 true (shipItem .calling) true 2 true) (s.available .c2)
          = decide (start = 60000) := by
  rcases h with rfl | rfl <;>
    exact ⟨rfl, calmBy (by decide), behindBy (by decide) (by decide), rfl, by decide, by decide, rfl, rfl, by decide⟩

/-- A relay's page read that fails: its first page EMPTY, the channel sending or still in KEYING. -/
theorem witness_body_fails (x : ChState) (h : x = .sending ∨ x = .keying) :
    let b : BodyReading := { pages := [], request := some 100, walked := 0, failed := false }
    let s : State := { only { relaying x [] with fetch := { Fetcher.reset with body := some b } } with
      priority := [prio true .onAir] }
    s.power = true ∧ s.Calm ∧ (s.chan .c2).fetch.body = some b ∧ (s.pageHeader 100).state ≠ 1 ∧ (s.chan .c2).state = x
      ∧ (s.chan .c2).onAir.map OnAir.slot = some (prio true .onAir).slot ∧ (s.chan .c2).item.hang ≠ 0
      ∧ Access.page 100 ∈ ({ noBus with errors := [.page 100] } : Bus).errors := by
  rcases h with rfl | rfl <;> exact ⟨rfl, calmBy (by decide), rfl, by decide, rfl, rfl, by decide, by decide⟩

/-! ## Witnesses: the whole part, step by step -/

theorem witness_held_slots :
    let s : State := { traffic [prio true .pending] [entry 0] [item .queued] (withBacklog [answer 5 false]) with
      pending := [.sweep noBus] }
    s.heldSlots = [9, 21, 3, 5] ∧ s.heldSlots.Nodup
      ∧ step s = .next (after (.sweep noBus) { s with pending := [] }) := ⟨by decide, by decide, rfl⟩

theorem witness_busless_commands (c : Chan) (slot : Nat) :
    Instr.channelBus (.urgentLimitPassed slot) = some noBus ∧ Instr.channelBus (.tuneStrobeExpiry c) = some noBus
      ∧ Instr.channelBus (.retuneLimitExpiry c) = some noBus ∧ Instr.channelBus (.lookaheadWaitThreshold c) = some noBus
      ∧ Instr.channelBus (.starvationExpiry c) = some noBus
      ∧ Instr.channelBus (.pageRereadTimerExpiry c) = some noBus :=
  ⟨rfl, rfl, rfl, rfl, rfl, rfl⟩

/-! ## Witnesses: answers with a pending take, hand-backs, exits with items, lookaheads -/

theorem witness_pending_take_answer :
    let s : State := { withBacklog [answer 127 false] with rack := { (withBacklog [answer 127 false]).rack with
      pendingTakes := [(127, 4294967295)] } }
    s.power = true ∧ s.MemoryCanonical ∧ s.rack.run = true ∧ s.rack.sweep = none ∧ s.rack.abandon = []
      ∧ s.rack.pendingTakes = [(127, 4294967295)] ∧ s.rack.backlog = [answer 127 false]
      ∧ (answer 127 false).expected = .taken ∧ (answer 127 false).walk = false ∧ (answer 127 false).seq = none :=
  ⟨rfl, rfl, rfl, rfl, rfl, rfl, rfl, rfl, rfl, rfl⟩

/-- A HOLD of channel 2, which is as given with the item of slot 9 its queue. -/
def holding (ch : Channel) (i : TelexItem) : State :=
  { (docket .held 6 [(96, 2)]).setChan .c2 (fun _ => ch) with telex := [i] }

/-- A channel before the text of the item of slot 9. -/
def beforeText (x : ChState) : Channel :=
  { calmChan x with onAir := some { kind := .telex, slot := 9, repetition := 0, resumed := false } }

theorem witness_hold_before_text (x : ChState) (i : TelexItem) (hold : Option Nat)
    (h : (x, i, hold) ∈ [(ChState.keying, item .onAir, none), (.calling, shipItem .calling, none),
      (.calling, shipItem .calling, some 50)]) :
    let s := holding { beforeText x with pendingHold := hold } i
    Docketed s (some .hold) ∧ Chan.ofNumber ((handed s).slotField 0 32 1) = some .c2
      ∧ ((handed s).chan .c2).offWaits = false ∧ ((handed s).chan .c2).state = x
      ∧ (handed s).telexOn .c2 = some i ∧ ((handed s).chan .c2).pendingHold = hold
      ∧ ((handed s).chan .c2).pendingRetune = none ∧ ((handed s).chan .c2).follower = none
      ∧ (handed s).pendingRelay .c2 = none := by
  simp only [List.mem_cons, Prod.mk.injEq, List.not_mem_nil, or_false] at h
  rcases h with ⟨rfl, rfl, rfl⟩ | ⟨rfl, rfl, rfl⟩ | ⟨rfl, rfl, rfl⟩ <;>
    exact ⟨⟨⟨rfl, rfl⟩, calmBy (by decide)⟩, by decide, rfl, rfl, rfl, rfl, rfl, rfl, rfl⟩

theorem witness_hold_relay_keying :
    let s := holding (relaying .keying []) (item .queued)
    Docketed s (some .hold) ∧ ((handed s).chan .c2).state = .keying ∧ (handed s).telexOn .c2 = none
      ∧ ((handed s).chan .c2).pendingHold = none :=
  ⟨⟨⟨rfl, rfl⟩, calmBy (by decide)⟩, rfl, rfl, rfl⟩

theorem witness_retune_pick (x : ChState) (setup : Bool) (h : x = .idle ∨ x = .hang) :
    let s : State := { docket x 8 [(96, 2), (97, 31)] with store := { State.reset.store with setup := setup } }
    Docketed s (some .retune) ∧ Chan.ofNumber ((handed s).slotField 0 32 1) = some .c2
      ∧ (handed s).slotField 0 33 1 = 31 ∧ ((handed s).chan .c2).state = x ∧ ((handed s).chan .c2).offWaits = false
      ∧ ((handed s).chan .c2).pendingRetune = none ∧ ((handed s).chan .c2).pendingHold = none
      ∧ ((handed s).chan .c2).follower = none ∧ (handed s).pendingRelay .c2 = none
      ∧ (handed s).store.setup = setup := by
  rcases h with rfl | rfl <;> cases setup <;>
    exact ⟨⟨⟨rfl, rfl⟩, calmBy (by decide)⟩, by decide, by decide, rfl, rfl, rfl, rfl, rfl, rfl, rfl⟩

/-- Channel 2 HELD with an INTERRUPTED head whose resume position stands at the end of its chain. -/
def endedHead (k : List CalEntry) : State :=
  traffic [] k [item .interrupted] ((releasing none none).setChan .c2 (fun ch =>
    { ch with fetch := { ch.fetch with resume := some { page := 100, index := 2, walked := 1, ended := true } } }))

/-- The empty final line needs 400 + (9 + 0 + 5) × 150 = 2500: A is 2500 with the start 32,500 ms ahead. -/
theorem witness_pick_ended (start : Nat) (h : start = 32500 ∨ start = 32499) :
    let s := endedHead [entry start]
    Docketed s (some .release) ∧ ((handed s).chan .c2).fetch.reading = none ∧ (handed s).head .c2 = some (item .interrupted)
      ∧ (handed s).waitingUrgent .c2 = none ∧ (handed s).dueEntry .c2 = none
      ∧ (((handed s).chan .c2).fetch.resume.map ResumePos.ended) = some true
      ∧ ((handed s).store.working.chan.get .c2).lead ≠ 0
      ∧ fits (startNeed (handed s).store.working .c2 false (item .interrupted) true 0 true)
          ((handed s).available .c2) = decide (start = 32500) := by
  rcases h with rfl | rfl <;>
    exact ⟨⟨⟨rfl, rfl⟩, calmBy (by decide)⟩, rfl, rfl, rfl, by decide, rfl, by decide, by decide⟩

theorem witness_lead_resumed (r : List Byte) (h : r = [] ∨ r = [0x52, 0x0A]) :
    let s := airing { calmChan .keying with
      onAir := some { kind := .telex, slot := 9, repetition := 0, resumed := true }, lead := some 0
      item := { (calmChan .keying).item with resume := r }
      fetch := { Fetcher.reset with reading := some (settledReading true) } } (item .onAir)
    s.power = true ∧ s.Calm ∧ (s.chan .c2).lead = some 0 ∧ (s.chan .c2).state = .keying ∧ s.Undisturbed .c2
      ∧ s.telexAt 9 = some (item .onAir) ∧ (item .onAir).callCode = [] ∧ (s.chan .c2).item.resume = r
      ∧ (s.chan .c2).fetch.reading = some (settledReading true) := by
  rcases h with rfl | rfl <;> exact ⟨rfl, calmBy (by decide), rfl, rfl, undisturbedBy (by decide), rfl, rfl, rfl, rfl⟩

theorem witness_notice (l : List Byte) (h : l = [] ∨ l = [0x0A]) :
    let s := airing { sendingText with
      segment := some .resumeNotice, rest := l
      fetch := { Fetcher.reset with reading := some (settledReading true) } } (item .onAir)
    s.power = true ∧ s.Calm ∧ (s.chan .c2).period = some 0 ∧ (s.chan .c2).state = .sending
      ∧ (s.chan .c2).segment = some .resumeNotice ∧ s.Undisturbed .c2 ∧ (s.chan .c2).rest = l
      ∧ (s.chan .c2).fetch.reading = some (settledReading true) := by
  rcases h with rfl | rfl <;> exact ⟨rfl, calmBy (by decide), rfl, rfl, rfl, undisturbedBy (by decide), rfl, rfl⟩

/-- An exit that switches channel 2 OFF with an item, entries and a bulletin of it: an entry of channels 2 and 5 that
waits, one of channel 2 alone, and one in its last repetition that is SENT on channel 5. -/
def exitWithItems (x : ChState) : State :=
  traffic [prio false .pending, { prio true .sent with slot := 4, mask := 6, out := (prio true .sent).out.set .c3 .pending }]
    [entry 0, { entry 0 with slot := 22, mask := 2 },
     { entry 0 with slot := 23, phase := some .due, left := 1, out := (entry 0).out.set .c5 .sent }]
    [item .interrupted] (leavingSetup.setChan .c2 (fun ch => { ch with state := x }))

theorem witness_exit_items (x : ChState) (h : x = .idle ∨ x = .hang ∨ x = .held) :
    let s := exitWithItems x
    Docketed s (some .setupExit) ∧ (handed s).store.setup = true ∧ (handed s).store.staged.isSome = true
      ∧ (handed s).HoldsOnce ∧ (∀ d ∈ Chan.all, ((handed s).chan d).onAir = none ∧ ((handed s).chan d).follower = none
          ∧ (d ≠ .c2 → ((handed s).chan d).state = .held))
      ∧ (∀ e ∈ (handed s).calendar, e.role = .single ∧ e.withdrawn = false)
      ∧ (∀ p ∈ (handed s).priority, p.withdrawn = false)
      ∧ (∀ d ∈ Chan.all, ((handed s).store.staged.map (fun i => (i.chan.get d).enabled)) = some (decide (d ≠ .c2))
          ∧ ((handed s).store.working.chan.get d).enabled = true) := by
  rcases h with rfl | rfl | rfl <;>
    exact ⟨⟨⟨rfl, rfl⟩, calmBy (by decide)⟩, rfl, rfl, by unfold State.HoldsOnce; decide, by decide, by decide,
      by decide, by decide⟩

/-- An exit that switches channel 2 ON. -/
def exitOn : State :=
  { docket .held 14 [] with store := { State.reset.store with
      setup := true, staged := some Image.factory
      working := { Image.factory with chan := Image.factory.chan.set .c2 { ChanSettings.factory with enabled := false } } } }

theorem witness_exit_on :
    let s : State := { exitOn.setChan .c2 (fun ch => { ch with state := .off }) with
      priority := [{ prio true .notUsed with mask := 4, out := (Six.all .notUsed).set .c3 .pending }] }
    Docketed s (some .setupExit) ∧ (handed s).store.setup = true ∧ (∀ d ∈ Chan.all, d ≠ .c2 →
        ((handed s).chan d).state = .held)
      ∧ (∀ p ∈ (handed s).priority, p.withdrawn = false ∧ p.out.get .c3 = .pending)
      ∧ (∀ d ∈ Chan.all, ((handed s).store.staged.map (fun i => (i.chan.get d).enabled)) = some true
          ∧ ((handed s).store.working.chan.get d).enabled = decide (d ≠ .c2))
      ∧ ((handed s).chan .c2).state = .off ∧ (handed s).NothingFor .c2 :=
  ⟨⟨⟨rfl, rfl⟩, calmBy (by decide)⟩, rfl, by decide, by decide, by decide, rfl, nothingBy (by decide)⟩

/-- The item of slot 9 on the air, its lookahead with a request, its chain, and host memory. -/
def lookingAhead (rd : Reading) (chain : List ChainPage) (m : List Host.Cell) : State :=
  { airing { sendingText with rest := [0x42], fetch := { Fetcher.reset with reading := some rd, chain := chain } }
    (item .onAir) with mem := m }

/-- A page that the text of the item of slot 9 reached before page 100. -/
def chainPage (num start count next : Nat) : ChainPage :=
  { num := num, walked := 1, start := start, count := count, next := next }

theorem witness_lookahead (m : List Host.Cell) (h : m = [] ∨ m = pageHundred) :
    let rd : Reading := { firstReading with first := false, request := some (.read 100 1 100 0) }
    let s := lookingAhead rd [chainPage 99 0 100 100] m
    s.power = true ∧ s.Calm ∧ (s.chan .c2).state = .sending ∧ s.telexOn .c2 = some (item .onAir)
      ∧ (s.chan .c2).fetch.reading = some rd
      ∧ (∀ p ∈ (s.chan .c2).fetch.chain, (item .onAir).offset < p.start + p.count)
      ∧ ((s.pageHeader 100).state = 1 ∧ (s.pageHeader 100).count = 2 ↔ m ≠ []) ∧ (item .onAir).offset < 100 + 2
      ∧ Access.page 100 ∈ ({ noBus with errors := [.page 100] } : Bus).errors := by
  rcases h with rfl | rfl <;>
    exact ⟨rfl, calmBy (by decide), rfl, rfl, rfl, by decide, by decide, by decide, by decide⟩

/-- The reading of a line that has come to the end of page 100, whose next field read MORE. -/
def moreReading (first : Bool) (line : List Byte) : Reading :=
  { firstReading with
    first := first, line := line, request := some .reread, condition := .blocked
    copy := some { num := 100, walked := 1, start := 0, count := 100, next := 65534, rest := [] } }

theorem witness_more (m : List Host.Cell) (next : Nat)
    (h : (m, next) ∈ [([(25602, 0xFF), (25603, 0xFF)], 65535), ([(25602, 0xFE), (25603, 0xFF)], 65534),
      ([(25602, 1)], 1), ([(25602, 0xFF), (25603, 0x0F)], 4095), ([], 0), ([(25603, 0x10)], 4096)]) :
    let s := lookingAhead (moreReading false [0x41]) [chainPage 100 0 100 65534] m
    s.power = true ∧ s.Calm ∧ s.telexOn .c2 = some (item .onAir)
      ∧ (s.chan .c2).fetch.reading = some (moreReading false [0x41])
      ∧ (∀ p ∈ (s.chan .c2).fetch.chain, (item .onAir).offset < p.start + p.count)
      ∧ (s.pageHeader 100).next = next
      ∧ (isEnd next = true ↔ next = 65535) ∧ (isMore next = true ↔ next = 65534)
      ∧ (isPage next = true ↔ next = 1 ∨ next = 4095) := by
  simp only [List.mem_cons, Prod.mk.injEq, List.not_mem_nil, or_false] at h
  rcases h with h | h | h | h | h | h <;> obtain ⟨rfl, rfl⟩ := h <;>
    exact ⟨rfl, calmBy (by decide), rfl, rfl, by decide, by decide, by decide, by decide, by decide⟩

theorem witness_more_passed (m : List Host.Cell) (h : m = pageHundred ∨ m = [(25600, 1), (25602, 1)]) :
    let s := lookingAhead (moreReading false []) [chainPage 100 0 80 65534] m
    s.power = true ∧ s.MemoryCanonical ∧ s.Calm ∧ s.telexOn .c2 = some (item .onAir)
      ∧ (s.chan .c2).fetch.chain = [chainPage 100 0 80 65534] ∧ 0 + 80 ≤ (item .onAir).offset
      ∧ (moreReading false []).copy.map PageCopy.walked = some (chainPage 100 0 80 65534).walked
      ∧ (isPage (s.pageHeader 100).next = true ∨ isEnd (s.pageHeader 100).next = true) := by
  rcases h with rfl | rfl <;> exact ⟨rfl, rfl, calmBy (by decide), rfl, rfl, by decide, rfl, by decide⟩

/-! ## Witnesses: ends of every kind, and chains -/

theorem witness_posting_progress (p : Progress) :
    let a : Answer := { answer 5 false with progress := p }
    let s := withBacklog [a]
    s.power = true ∧ s.MemoryCanonical ∧ s.rack.run = true ∧ s.rack.sweep = none ∧ s.rack.abandon = []
      ∧ s.rack.pendingTakes = [] ∧ a.walk = false ∧ a.slot < 128 ∧ a.progress = p
      ∧ s.telexAt a.slot = none ∧ s.entryAt a.slot = none ∧ s.prioAt a.slot = none :=
  ⟨rfl, rfl, rfl, rfl, rfl, rfl, rfl, (by decide : 5 < 128), rfl, rfl, rfl, rfl⟩

/-- A last repetition with all SENT or with none, and one whose last repetitions are all missed. -/
theorem witness_results (o : ChanOutcome) (h : o = .sent ∨ o = .failed) :
    let e : CalEntry := { limitEntry o 1 with out := (Six.all .notUsed).set .c5 o }
    let s : State := { station .held with calendar := [e] }
    s.entryAt 21 = some e ∧ e.unsentTally = 0 ∧ (∀ c, e.out.get c ≠ .onAir ∧ e.out.get c ≠ .pending)
      ∧ ((∀ c, e.out.get c ≠ .failed ∧ e.out.get c ≠ .missed) ↔ o = .sent)
      ∧ e.sentTally + e.tally (fun o => decide (o = .sent)) = (if o = .sent then 1 else 0) := by
  rcases h with rfl | rfl
  · exact ⟨rfl, rfl, each (by decide), ⟨fun _ => rfl, fun _ => each (by decide)⟩, by decide⟩
  · exact ⟨rfl, rfl, each (by decide), ⟨fun x => absurd rfl (x .c5).1, fun x => absurd x (by decide)⟩, by decide⟩

/-- The repetition settles beside a channel in the lookahead wait, whose A is then 1950 or 1951. -/
theorem witness_settle_in_wait (a : Nat) (h : a = 1950 ∨ a = 1951) :
    let e : CalEntry := { limitAt 600001 2 with start := 79230000 + a }
    let s := waitingBeside [e]
    s.power = true ∧ s.Calm ∧ (∀ c, s.takesNoPick c) ∧ s.entryAt 21 = some e
      ∧ (∀ c, inMask e.mask c = true → e.out.get c ≠ .onAir) ∧ (e.e : Int) - (0 + 1 : Nat) * e.interval ≤ e.tolerance
      ∧ e.e < (0 + 1) * e.interval ∧ inMask e.mask .c2 = true ∧ (s.chan .c2).waiting = true
      ∧ (s.chan .c2).cutDecided = false ∧ (s.chan .c2).decided = none ∧ (s.chan .c2).follower ≠ some 21
      ∧ (s.chan .c2).fetch.reading.map Reading.condition = some .blocked
      ∧ (((s.chan .c2).item.cut.length + 1) * (s.chan .c2).item.period : Nat) = 1950
      ∧ (after (.latestStartPassed 21 noBus) s).available .c2 = some (a : Int) := by
  rcases h with rfl | rfl <;>
    exact ⟨rfl, calmBy (by decide), noPickBy (by decide), rfl, each (by decide), by decide, by decide, rfl, rfl, rfl, rfl,
      by decide, rfl, by decide, by decide⟩

/-- A SETCLOCK to 1,200,000 ms over one entry: backward, not so far as S, and by k repetitions. -/
def jumping (old : Nat) (e : CalEntry) : State :=
  { atTime old (docket .held 11 [(96, 0x80), (97, 0x4F), (98, 0x12)]) with calendar := [e] }

theorem witness_setclock_jump (old : Nat) (e : CalEntry) (forwards reached : Bool) (late : Nat)
    (h : (old, e, forwards, reached, late) ∈ [(1800000, entry 900000, false, false, 300000),
      (1800000, entry 1200000, false, false, 0), (85800000, entry 1200001, true, false, 86399999),
      (85800000, entry 900000, true, true, 300000), (85800000, entry 86100000, true, true, 1500000),
      (85800000, { entry 86100000 with interval := 900000 }, true, true, 1500000),
      (85800000, { entry 86100000 with left := 1 }, true, true, 1500000)]) :
    let s := jumping old e
    Docketed s (some .setclock) ∧ (handed s).slotField 0 32 4 = 1200000 ∧ (handed s).calendar = [e]
      ∧ (∀ c, (handed s).takesNoPick c) ∧ e.phase = some .waiting ∧ e.role = .single ∧ e.withdrawn = false
      ∧ 1 ≤ e.left ∧ e.start < 86400000 ∧ e.tolerance = 600000
      ∧ decide (forward (handed s).clock.value 1200000 < 43200000) = forwards
      ∧ decide (1 ≤ forward old e.start ∧ forward old e.start ≤ forward old 1200000 ∧ forwards = true) = reached
      ∧ forward e.start 1200000 = late := by
  simp only [List.mem_cons, Prod.mk.injEq, List.not_mem_nil, or_false] at h
  rcases h with h | h | h | h | h | h | h <;> obtain ⟨rfl, rfl, rfl, rfl, rfl⟩ := h <;>
    exact ⟨⟨⟨rfl, rfl⟩, calmBy (by decide)⟩, by decide, rfl, noPickBy (by decide), rfl, rfl, rfl, by decide, by decide,
      rfl, by decide, by decide, by decide⟩

/-- An item withdrawn on the air, and one with a decided end, at a break point and at the end of the signoff. -/
theorem witness_decided (g : Segment) (x : TelexState) (r : Option Result)
    (h : (g, x, r) ∈ [(Segment.text, TelexState.ending, none), (.text, .onAir, some Result.starved),
      (.signoff, .ending, none), (.signoff, .onAir, some .busFault)]) :
    let s := airing { sendingText with segment := some g, decided := r } (item x)
    s.power = true ∧ s.Calm ∧ (s.chan .c2).period = some 0 ∧ (s.chan .c2).rest = [] ∧ (s.chan .c2).lineFinal = false
      ∧ (s.chan .c2).waiting = false ∧ s.NothingBehind .c2 (item x) ∧ (item x).state = x ∧ (s.chan .c2).decided = r
      ∧ (s.chan .c2).segment = some g ∧ (s.chan .c2).item.hang ≠ 0 ∧ (s.chan .c2).item.cut.head? = some 0x42 := by
  simp only [List.mem_cons, Prod.mk.injEq, List.not_mem_nil, or_false] at h
  rcases h with h | h | h | h <;> obtain ⟨rfl, rfl, rfl⟩ := h <;>
    exact ⟨rfl, calmBy (by decide), rfl, rfl, rfl, rfl, behindBy (by decide) (by decide), rfl, rfl, rfl, by decide, rfl⟩

/-- The cut notice has been sent, with either result fixed at the cut. -/
theorem witness_cut_end (f : Fixed) (h : f = .interrupted ∨ f = .ends .withdrawn) :
    let s := airing { sendingText with segment := some .cutNotice, fixed := some f } (item .onAir)
    s.power = true ∧ s.Calm ∧ (s.chan .c2).period = some 0 ∧ (s.chan .c2).state = .sending ∧ (s.chan .c2).rest = []
      ∧ (s.chan .c2).fetch.reading = none ∧ s.NothingBehind .c2 (item .onAir) ∧ (s.chan .c2).fixed = some f
      ∧ (s.chan .c2).item.hang ≠ 0 := by
  rcases h with rfl | rfl <;>
    exact ⟨rfl, calmBy (by decide), rfl, rfl, rfl, rfl, behindBy (by decide) (by decide), rfl, by decide⟩

/-- The 24th code without a match, in a call and in a closing check, and the match of a closing check. -/
theorem witness_rxd_ends (x : ChState) (m : CallMode) (window : List Byte)
    (h : (x, m, window) ∈ [(ChState.calling, CallMode.opening, List.replicate 23 (0x50 : Byte)),
      (.closing, .closing, List.replicate 23 0x50), (.closing, .closing, [0x51])]) :
    let l := listening x m 1
    let s := airing { l with call := { l.call with window := window } } (shipItem (if x = .closing then .onAir else .calling))
    s.power = true ∧ s.Calm ∧ (s.chan .c2).call.condition = .listen ∧ (s.chan .c2).call.mode = some m
      ∧ s.NothingBehind .c2 (shipItem (if x = .closing then .onAir else .calling)) ∧ (s.chan .c2).item.hang ≠ 0
      ∧ (24 ≤ (s.chan .c2).call.window.length + 1 ↔ window ≠ [0x51])
      ∧ answerbackMatches ((s.chan .c2).call.window ++ [0x52]) [0x51, 0x52] = decide (window = [0x51]) := by
  simp only [List.mem_cons, Prod.mk.injEq, List.not_mem_nil, or_false] at h
  rcases h with ⟨rfl, rfl, rfl⟩ | ⟨rfl, rfl, rfl⟩ | ⟨rfl, rfl, rfl⟩ <;>
    exact ⟨rfl, calmBy (by decide), rfl, rfl, behindBy (by decide) (by decide), by decide, by decide, by decide⟩

theorem witness_rxd_resumed :
    let l := listening .calling .opening 0
    let s := airing { l with call := { l.call with resumed := some true } } (shipItem .calling)
    s.power = true ∧ s.Calm ∧ s.telexOn .c2 = some (shipItem .calling) ∧ (s.chan .c2).call.condition = .listen
      ∧ answerbackMatches ((s.chan .c2).call.window ++ [0x52]) (shipItem .calling).answerback = true
      ∧ (s.chan .c2).item.resume.head?.isSome = true ∧ s.Undisturbed .c2 :=
  ⟨rfl, calmBy (by decide), rfl, rfl, by decide, by decide, undisturbedBy (by decide)⟩

/-- A relay or a stop-key edge that waits at the end of an attempt: at a match (O51) and at a timeout (O52). -/
theorem witness_attempt_cut (stop : Bool) (l : List PrioEntry) (h : (stop, l) ∈ [(false, [prio true .pending]),
    (true, [])]) :
    let s := traffic l [] [shipItem .calling] (only { listening .calling .opening 1 with stopAtBoundary := stop })
    s.power = true ∧ s.Calm ∧ s.telexOn .c2 = some (shipItem .calling) ∧ (s.chan .c2).call.condition = .listen
      ∧ (s.chan .c2).call.timer = some 0 ∧ (s.chan .c2).call.attempts + 1 < s.store.working.callAttempts
      ∧ answerbackMatches ((s.chan .c2).call.window ++ [0x52]) (shipItem .calling).answerback = true
      ∧ s.trafficSource .c2 = false ∧ s.available .c2 = none ∧ (s.chan .c2).stopAtBoundary = stop
      ∧ s.pendingRelay .c2 = l.head? ∧ (shipItem .calling).state = .calling ∧ (s.chan .c2).segment = none := by
  simp only [List.mem_cons, Prod.mk.injEq, List.not_mem_nil, or_false] at h
  rcases h with ⟨rfl, rfl⟩ | ⟨rfl, rfl⟩ <;>
    exact ⟨rfl, calmBy (by decide), rfl, rfl, rfl, by decide, by decide, by decide, by decide, rfl, by decide, rfl, rfl⟩

/-- An attempt without an answer while an urgent bulletin, or a due one, waits for the channel. -/
theorem witness_attempt_preempted (p : List PrioEntry) (k : List CalEntry)
    (h : (p, k) ∈ [([prio false .pending], []), ([], [{ entry 0 with phase := some .due }])]) :
    let s := traffic p k [shipItem .calling] (only (listening .calling .opening 1))
    s.power = true ∧ s.Calm ∧ s.Undisturbed .c2 ∧ (s.chan .c2).pendingHold = none ∧ (s.chan .c2).pendingRetune = none
      ∧ (s.chan .c2).follower = none ∧ s.store.setup = false ∧ s.telexOn .c2 = some (shipItem .calling)
      ∧ (s.chan .c2).call.condition = .listen ∧ (s.chan .c2).call.timer = some 0
      ∧ (s.chan .c2).call.attempts + 1 < s.store.working.callAttempts
      ∧ s.waitingUrgent .c2 = p.head? ∧ s.dueEntry .c2 = k.head? := by
  simp only [List.mem_cons, Prod.mk.injEq, List.not_mem_nil, or_false] at h
  rcases h with ⟨rfl, rfl⟩ | ⟨rfl, rfl⟩ <;>
    exact ⟨rfl, calmBy (by decide), undisturbedBy (by decide), rfl, rfl, rfl, rfl, rfl, rfl, rfl, by decide, by decide,
      by decide⟩

/-- The chain of pages 100 and 101, by each way a walk over it stops: END, MORE, 0, 4096, page 102 EMPTY, page 100 again,
the limit of two pages, and bus errors on page 100 itself. -/
theorem witness_walk_chain (lo hi : Byte) (limit : Nat) (h : (lo, hi, limit) ∈ [(0xFF, 0xFF, 64), (0xFE, 0xFF, 64),
      (0, 0, 64), (0, 0x10, 64), (102, 0, 64), (100, 0, 64), (103, 0, 2), (103, 0, 3)]) :
    let s : State := { only { calmChan .held with fetch := { Fetcher.reset with
      walks := [{ slot := 9, page := 100, limit := limit }] } } with
      mem := [(25600, 1), (25602, 101), (25856, 1)] ++ (if lo = 0 then [] else [(25858, lo)])
        ++ (if hi = 0 then [] else [(25859, hi)]) ++ [(26368, 1)] }
    s.power = true ∧ s.MemoryCanonical ∧ [100, 101].Nodup ∧ [100, 101].length ≤ limit
      ∧ (∀ n ∈ [100, 101], (s.pageHeader n).state = 1) ∧ (s.pageHeader 102).state ≠ 1 ∧ (s.pageHeader 103).state = 1
      ∧ (∀ n k before after, [100, 101] = before ++ n :: k :: after → (s.pageHeader n).next = k)
      ∧ (s.pageHeader 101).next = lo.toNat + 256 * hi.toNat
      ∧ Access.mark 103 ∈ ({ noBus with errors := [.mark 103] } : Bus).errors := by
  have split (P : Nat → Nat → Prop) (p : P 100 101) (n k : Nat) (before after : List Nat)
      (e : [100, 101] = before ++ n :: k :: after) : P n k := by
    match before with
    | [] => simp at e; obtain ⟨rfl, rfl, _⟩ := e; exact p
    | [_] => simp at e
    | _ :: _ :: _ => simp at e
  simp only [List.mem_cons, Prod.mk.injEq, List.not_mem_nil, or_false] at h
  rcases h with h | h | h | h | h | h | h | h <;> obtain ⟨rfl, rfl, rfl⟩ := h <;>
    exact ⟨rfl, rfl, by decide, by decide, by decide, by decide, by decide, split _ (by decide), by decide, by decide⟩

/-! ## Small tests of one step -/

/-- R142, R143: page 100 is read twice, and its reread finds MORE: the first passage keeps the next field it found. -/
theorem test_reread_renews_last_passage :
    let rd := moreReading false [0x41]
    let twice : List ChainPage := [chainPage 100 60 40 101, { chainPage 101 100 40 100 with walked := 2 },
      { chainPage 100 140 40 65534 with walked := 3 }]
    let s := lookingAhead { rd with copy := rd.copy.map (fun p => { p with walked := 3, start := 140 }) } twice
      [(25602, 0xFE), (25603, 0xFF)]
    ((after (.telexPageRead .c2 noBus) s).chan .c2).fetch.chain.map ChainPage.next = [101, 100, 65534]
      ∧ ((after (.telexPageRead .c2 noBus) { s with mem := [(25602, 99)] }).chan .c2).fetch.chain.map ChainPage.next
          = [101, 100, 99] := by decide

/-- Chapter 5.4: a match after one attempt without an answer leaves the counter of the call at 2 (R88). -/
theorem test_match_keeps_counter :
    let t := after (.rxdCodeArrival .c2 0x52 noBus) (airing (listening .calling .opening 1) (shipItem .calling))
    (t.chan .c2).call.attempts = 2 ∧ (t.chan .c2).call.condition = .standby ∧ (t.chan .c2).state = .sending := by decide

/-- R95: a stop-key edge that waits at a match finds the item in TEXT, whose first line is final and empty: the attempt is
counted and the item INTERRUPTED, with no signoff. -/
theorem test_match_cut_by_stop_key :
    let t := after (.rxdCodeArrival .c2 0x52 noBus) (airing { listening .calling .opening 1 with
      stopAtBoundary := true
      fetch := { Fetcher.reset with reading := some { settledReading true with line := [] } } } (shipItem .calling))
    (t.chan .c2).state = .held ∧ t.telex.map TelexItem.state = [.interrupted]
      ∧ t.telex.map TelexItem.attempts = [1] ∧ t.telex.map TelexItem.cuts = [1] := by decide

/-- Chapter 5.4: an attempt that does not fit hands the item back INTERRUPTED with its cuts as they were, and the pick of
the same event tests the first line that is still settled (R90, R49). -/
theorem test_attempt_handed_back :
    let t := after (.answerbackTimeout .c2 noBus)
      { airing (listening .calling .opening 0) (shipItem .calling) with calendar := [entry 30000] }
    (t.chan .c2).state = .hang ∧ (t.chan .c2).fetch.reading = some (settledReading true)
      ∧ (t.chan .c2).call.attempts = 0
      ∧ (t.telexAt 9).map (fun i => (i.state, i.cuts, i.attempts)) = some (.interrupted, 0, 1) := by decide

/-- R14: a backward SETCLOCK that brings A under the threshold ends no wait; R59: a tick that does so does. -/
theorem test_backward_setclock_keeps_wait :
    let s := atTime 21600000 { (docket .held 11 [(96, 0xF0), (97, 0x83), (98, 0x3B), (99, 1)]).setChan .c2
      (fun _ => waitingChan) with telex := [item .onAir], calendar := [entry 20700000] }
    let t := after (.setclock 0 noBus) s
    t.clock.value = 20677616 ∧ t.available .c2 = some (-7616) ∧ (t.chan .c2).cutDecided = false
      ∧ ((after (.lookaheadWaitThreshold .c2) t).chan .c2).cutDecided = true := by decide

/-- R59: a wait compares when a bounding entry is withdrawn and a nearer window takes its place. -/
theorem test_withdraw_compares :
    let s := withdrawEntries [entry 0, { entry 31950 with slot := 22 }]
    ((after (.withdraw 0 noBus) s).chan .c2).cutDecided = true := by decide

/-- R184: the write ends by its 250th millisecond. -/
theorem test_commit_age (n : Nat) (h : n = 249 ∨ n = 250) :
    ((after .stationClockTick { station .idle with store := { State.reset.store with
      commit := some { slot := 1, copy := Image.factory, elapsed := n } } }).store.commit.map Commit.elapsed) = some 250 := by
  rcases h with rfl | rfl <;> rfl

/-- R151: READY is reported before the AUX input is looked at, so that the item picked on the way to IDLE is in KEYING
when the stop-key edge comes, and is held at its boundary (R32). -/
theorem test_line_check_order :
    let ch := { auxAt (calmChan .unready) (some false) (some true) with fetch := { Fetcher.reset with
      reading := some headReading } }
    let s : State := { stopKeyed { ch with line := { ch.line with
      ready := ⟨some true, 4⟩, readyDeclared := false } } with
      telex := [item .queued] }
    let t := after (.lineCheck .c2 true false true noBus) s
    (t.chan .c2).state = .keying ∧ (t.chan .c2).stopAtBoundary = true := by decide

/-- R121: taking a channel out of an entry changes its last-repetition outcomes, and the next sweep writes them. -/
theorem test_loss_is_progress :
    let e := (entry 0).loseOne .c5
    e.last.get .c5 = .notUsed ∧ e.changed = true ∧ (entry 0).changed = false := by decide

/-- R48: an item cut after its MORE page was reread END is resumed with an empty final line: no page is read, and its
pick follows in the same event. -/
theorem test_resume_at_end :
    resumeAt 82 [chainPage 100 0 82 65535] [] none = some { page := 100, index := 82, walked := 1, ended := true }
    ∧ (let t := after (.release 0 noBus) (endedHead [])
       (t.chan .c2).state = .keying ∧ (t.telexAt 9).map TelexItem.state = some .onAir
         ∧ (t.chan .c2).fetch.reading.map (fun r => (r.line, r.condition, r.request)) = some ([], .settled true, none)) := by
  decide

/-- R27, R127: at the boundary of a channel switched OFF and ON again, a relay pending is not taken at reduced power; it
is picked in the IDLE that follows. -/
theorem test_off_boundary_leaves_relay :
    let s : State := { only { relaying .faulted [bodyPage []] with offWaits := true } with
      priority := [prio true .onAir, { prio true .pending with slot := 4 }] }
    let t := after (.characterBoundary .c2 noBus) s
    (t.chan .c2).state = .keying ∧ (t.chan .c2).onAir.map OnAir.slot = some 4 ∧ (t.chan .c2).offWaits = false := by
  decide

/-! ## Witnesses: offers to an IDLE channel or a HANG, relays at an exit, and frames of a sweep -/

theorem beforeDueBy {s : State} {c : Chan} (h : s.pendingRelay c = none ∧ s.store.setup = false
    ∧ (s.chan c).pendingHold = none ∧ (s.chan c).pendingRetune = none ∧ (s.chan c).follower = none
    ∧ s.waitingUrgent c = none ∧ (s.store.working.chan.get c).lead ≠ 0) : s.NothingBeforeDue c :=
  ⟨h.1, h.2.1, h.2.2.1, h.2.2.2.1, h.2.2.2.2.1, h.2.2.2.2.2.1, h.2.2.2.2.2.2⟩

/-- Channel 2 is free in a state, the others HELD; the calendar is as given. -/
def offering (x : ChState) (k : List CalEntry) : State := { only (calmChan x) with calendar := k }

theorem witness_start_offer (x : ChState) (h : x = .idle ∨ x = .hang) :
    let e := { entry 0 with arrived := true }
    let s := offering x [{ entry 9 with slot := 22 }, e]
    s.power = true ∧ s.Calm ∧ (∀ d ∈ Chan.all, d ≠ .c2 → (s.chan d).state = .held) ∧ (s.chan .c2).state = x
      ∧ (s.chan .c2).waitOpen = false ∧ (s.calendar.map CalEntry.slot).Nodup ∧ e ∈ s.calendar ∧ e.phase = some .waiting
      ∧ e.role = .single ∧ e.withdrawn = false ∧ (∀ x ∈ s.calendar, x ≠ e → x.arrived = false)
      ∧ inMask e.mask .c2 = true ∧ e.out.get .c2 = .pending ∧ s.dueEntry .c2 = none ∧ s.NothingBeforeDue .c2 := by
  rcases h with rfl | rfl <;>
    exact ⟨rfl, calmBy (by decide), by decide, rfl, rfl, by decide, by decide, rfl, rfl, rfl, by decide, by decide, rfl,
      by decide, beforeDueBy (by decide)⟩

/-- DUE again with 600,000 ms left at its second repetition, and with 0 ms left at its third. -/
theorem witness_next_offer (x : ChState) (e k : Nat) (h : x = .idle ∨ x = .hang)
    (g : (e, k) ∈ [(7200000, 0), (7800000, 0), (14400000, 1)]) :
    let s := offering x [limitAt e 3, { entry 9 with slot := 22 }]
    s.power = true ∧ s.Calm ∧ (∀ d ∈ Chan.all, d ≠ .c2 → (s.chan d).state = .held) ∧ (s.chan .c2).state = x
      ∧ (s.calendar.map CalEntry.slot).Nodup ∧ s.entryAt 21 = some (limitAt e 3)
      ∧ (∀ d ∈ Chan.all, (limitAt e 3).out.get d ≠ .onAir) ∧ inMask (limitAt e 3).mask .c2 = true
      ∧ (∀ x ∈ s.calendar, x.slot ≠ 21 → x.dueOn .c2 = false) ∧ s.NothingBeforeDue .c2 ∧ k + 1 < 3
      ∧ (∀ j < k, ((limitAt e 3).tolerance : Int) < (e : Int) - (j + 1 : Nat) * (limitAt e 3).interval)
      ∧ (k + 1) * (limitAt e 3).interval ≤ e
      ∧ (e : Int) - (k + 1 : Nat) * (limitAt e 3).interval ≤ (limitAt e 3).tolerance := by
  simp only [List.mem_cons, Prod.mk.injEq, List.not_mem_nil, or_false] at g
  rcases h with rfl | rfl <;> rcases g with g | g | g <;> obtain ⟨rfl, rfl⟩ := g <;>
    exact ⟨rfl, calmBy (by decide), by decide, rfl, by decide, rfl, by decide, by decide, by decide,
      beforeDueBy (by decide), by decide, by decide, by decide, by decide⟩

/-- A WITHDRAW of slot 21 while channel 2 is free, with the settled head of its queue and a second entry. -/
def withdrawFree (x : ChState) (start : Nat) (i : TelexItem) : State :=
  traffic [] [entry 0, { entry start with slot := 22 }] [i]
    ((docket .held 5 [(96, 21)]).setChan .c2 (fun _ =>
      { calmChan x with fetch := { Fetcher.reset with reading := some headReading } }))

/-- The need is 2500 from IDLE for a line of two codes, and A is 2500 with the second entry's start 32,500 ms ahead. -/
theorem witness_withdraw_pick (x : ChState) (start : Nat)
    (h : (x, start) ∈ [(ChState.idle, 32500), (.idle, 32499), (.hang, 32500)]) :
    let s := withdrawFree x start (item .queued)
    Docketed s (some .withdraw) ∧ (∀ d ∈ Chan.all, d ≠ .c2 → ((handed s).chan d).state = .held)
      ∧ ((handed s).chan .c2).state = x ∧ (handed s).slotField 0 32 1 = 21 ∧ (handed s).telexAt 21 = none
      ∧ (handed s).entryAt 21 = some (entry 0) ∧ (∀ d ∈ Chan.all, (entry 0).out.get d ≠ .onAir)
      ∧ inMask (entry 0).mask .c2 = true ∧ (handed s).NothingBeforeDue .c2 ∧ (handed s).dueEntry .c2 = none
      ∧ (handed s).head .c2 = some (item .queued) ∧ (handed s).telexAt 9 = some (item .queued)
      ∧ ((handed s).chan .c2).fetch.reading = some headReading ∧ headReading.condition = .settled false
      ∧ startNeed (handed s).store.working .c2 false (item .queued) false headReading.line.length false = 2500
      ∧ ({ handed s with calendar := (handed s).calendar.filter (fun x => x.slot != 21) } : State).available .c2
          = some ((start : Int) - 30000) := by
  simp only [List.mem_cons, Prod.mk.injEq, List.not_mem_nil, or_false] at h
  rcases h with h | h | h <;> obtain ⟨rfl, rfl⟩ := h <;>
    exact ⟨⟨⟨rfl, rfl⟩, calmBy (by decide)⟩, by decide, rfl, by decide, rfl, rfl, by decide, by decide,
      beforeDueBy (by decide), by decide, rfl, rfl, rfl, rfl, by decide, by decide⟩

/-- An exit that takes channel 2 out of a DUE entry whose channel 5 is SENT and which has repetitions left. -/
def exitSettles (e left : Nat) : State :=
  traffic [] [{ entry 0 with phase := some .due, e := e, left := left, out := (entry 0).out.set .c5 .sent }] []
    (leavingSetup.setChan .c2 (fun ch => { ch with state := .idle }))

theorem witness_exit_settles (e left k : Nat)
    (h : (e, left, k) ∈ [(600000, 2, 0), (7200000, 3, 0), (14400000, 3, 1)]) :
    let s := exitSettles e left
    Docketed s (some .setupExit) ∧ (handed s).store.setup = true ∧ (handed s).HoldsOnce
      ∧ (∀ x ∈ (handed s).calendar, x.role = .single ∧ x.withdrawn = false ∧ inMask x.mask .c2 = true
          ∧ inMask x.mask .c5 = true ∧ x.phase = some .due ∧ 1 < x.left
          ∧ (∀ d ∈ Chan.all, d ≠ .c2 → inMask x.mask d = true → x.out.get d = .sent)
          ∧ k + 1 < x.left ∧ (∀ j < k, (x.tolerance : Int) < (x.e : Int) - (j + 1 : Nat) * x.interval)
          ∧ (x.e : Int) - (k + 1 : Nat) * x.interval ≤ x.tolerance) := by
  simp only [List.mem_cons, Prod.mk.injEq, List.not_mem_nil, or_false] at h
  rcases h with h | h | h <;> obtain ⟨rfl, rfl, rfl⟩ := h <;>
    exact ⟨⟨⟨rfl, rfl⟩, calmBy (by decide)⟩, rfl, by unfold State.HoldsOnce; decide, by decide⟩

theorem witness_exit_all_missed :
    (∀ x ∈ (handed (exitSettles 15000001 3)).calendar, 1 < x.left
      ∧ ∀ j < x.left - 1, (x.tolerance : Int) < (x.e : Int) - (j + 1 : Nat) * x.interval) := by decide

/-- An exit that switches channel 2 OFF while it sends the relay of slot 3, with an item queued and a HOLD pending. -/
def exitRelay (x : ChState) : State :=
  traffic [relayOnTwo] [] [item .queued] (leavingSetup.setChan .c2 (fun _ =>
    { relaying x [bodyPage [0x41]] with pendingHold := some 50 }))

theorem witness_exit_relay (x : ChState) (h : x = .sending ∨ x = .faulted) :
    let s := exitRelay x
    Docketed s (some .setupExit) ∧ (handed s).store.setup = true ∧ (handed s).store.staged.isSome = true
      ∧ (handed s).HoldsOnce ∧ ((handed s).chan .c2).onAir.map OnAir.kind = some .distress
      ∧ ((handed s).chan .c2).state = x ∧ ((handed s).chan .c2).follower = none
      ∧ (handed s).prioAt 3 = some relayOnTwo ∧ relayOnTwo.distress = true ∧ relayOnTwo.withdrawn = false
      ∧ relayOnTwo.out.get .c2 = .onAir ∧ (∀ d ∈ Chan.all, d ≠ .c2 → ((handed s).chan d).state = .held)
      ∧ (∀ d ∈ Chan.all, ((handed s).store.staged.map (fun i => (i.chan.get d).enabled)) = some (decide (d ≠ .c2))
          ∧ ((handed s).store.working.chan.get d).enabled = true) := by
  rcases h with rfl | rfl <;>
    exact ⟨⟨⟨rfl, rfl⟩, calmBy (by decide)⟩, rfl, rfl, by unfold State.HoldsOnce; decide, rfl, rfl, rfl, rfl, rfl, rfl,
      rfl, by decide, by decide⟩

/-- Channel 2, switched OFF, sends the relay of slot 3, whose page still holds a code, and awaits its boundary. -/
def offRelay (x : ChState) (faults : Nat) (p : PrioEntry) : State :=
  let ch := relaying x [bodyPage [0x41]]
  let s := { only { ch with offWaits := true, line := { ch.line with faults := faults } } with priority := [p] }
  { s with store := { s.store with working := { s.store.working with
      chan := s.store.working.chan.set .c2 { ChanSettings.factory with enabled := false } } } }

theorem witness_off_relay (x : ChState) (faults : Nat) (p : PrioEntry) (h : x = .sending ∨ x = .faulted)
    (f : faults = 2 ∨ faults = 3) (g : p ∈ [relayOnTwo, prio true .onAir]) :
    let s := offRelay x faults p
    s.power = true ∧ s.Calm ∧ (s.chan .c2).offWaits = true ∧ (s.store.working.chan.get .c2).enabled = false
      ∧ (s.chan .c2).onAir.map OnAir.kind = some .distress ∧ (s.chan .c2).state = x ∧ (s.chan .c2).segment = none
      ∧ (s.chan .c2).period = some 0 ∧ (s.chan .c2).fetch.body.map BodyReading.complete = some false
      ∧ (s.chan .c2).fetch.body.map BodyReading.failed = some false ∧ (s.chan .c2).follower = none
      ∧ s.prioAt 3 = some p ∧ p.distress = true ∧ p.withdrawn = false ∧ p.out.get .c2 = .onAir
      ∧ (s.chan .c2).line.faults = faults
      ∧ ((∃ d ∈ Chan.all, d ≠ .c2 ∧ (p.out.get d = .pending ∨ p.out.get d = .onAir)) ↔ p = relayOnTwo) := by
  simp only [List.mem_cons, List.not_mem_nil, or_false] at g
  rcases h with rfl | rfl <;> rcases f with rfl | rfl <;> rcases g with rfl | rfl <;>
    exact ⟨rfl, calmBy (by decide), rfl, rfl, rfl, rfl, rfl, rfl, by decide, rfl, rfl, rfl, rfl, rfl, rfl, rfl,
      by decide⟩

/-- A slot beside the posted answers' of which nothing is marked changed. -/
theorem witness_sweep_frame :
    let s := { progressing false with rack := (withBacklog [answer 5 false]).rack }
    s.power = true ∧ s.MemoryCanonical ∧ s.rack.run = true ∧ s.rack.sweep = none ∧ s.rack.backlog = [answer 5 false]
      ∧ (answer 5 false).progress = .none ∧ s.telexAt 5 = none ∧ s.entryAt 5 = none ∧ s.prioAt 5 = none
      ∧ (∀ i, s.telexAt 9 = some i → i.changed = false) ∧ (∀ e, s.entryAt 21 = some e → e.changed = false) :=
  ⟨rfl, rfl, rfl, rfl, rfl, rfl, rfl, rfl, rfl, fun _ h => by cases h; rfl, fun _ h => by cases h; rfl⟩

/-- A head item's page whose next field is out of range. -/
theorem witness_page_next :
    let s : State := { airing { calmChan .unready with fetch := { Fetcher.reset with
      reading := some firstReading } } (item .queued) with mem := [(25600, 1), (25601, 2), (25608, 0x41), (25609, 0x42)] }
    let h := s.pageHeader 100
    s.power = true ∧ s.Calm ∧ s.takesNoPick .c2 ∧ s.telexOn .c2 = none ∧ h.state = 1 ∧ h.count = 2 ∧ h.next = 0
      ∧ (firstReading.takeFrom { num := 100, walked := 1, start := 0, count := 2, next := 0
                                 rest := s.pageText 100 2 }).condition = .unreadable .badText :=
  ⟨rfl, calmBy (by decide), noPickBy (by decide) .c2, rfl, by decide, by decide, by decide, by decide⟩

/-- The lines that a page's codes may leave: ended with codes left, ended at the last code, and not ended. -/
theorem witness_take (codes taken left : List Byte) (ended : Bool)
    (h : (codes, taken, left, ended) ∈ [([0x41, 0x0A, 0x42], [0x41, 0x0A], [0x42], true),
      ([0x41, 0x0A], [0x41, 0x0A], [], true), ([0x41], [0x41], [], false), ([], [], [], false)]) :
    takeLine 0x0A codes [] = (taken, left, ended)
      ∧ isEnd 65535 = true ∧ isMore 65534 = true ∧ isPage 1 = true ∧ isPage 4095 = true ∧ isPage 4096 = false := by
  simp only [List.mem_cons, Prod.mk.injEq, List.not_mem_nil, or_false] at h
  rcases h with h | h | h | h <;> obtain ⟨rfl, rfl, rfl, rfl⟩ := h <;> decide

/-- R108: the entry that becomes DUE is on the air of the IDLE channel in the same event; in HANG it waits for the
boundary. -/
theorem test_due_offer :
    let e := { entry 0 with arrived := true }
    let due := { entry 0 with phase := some .due, r := 600000 }
    let t := after (.startTimeExpiry noBus) (offering .idle [e])
    let u := after (.startTimeExpiry noBus) (offering .hang [e])
    (t.chan .c2).state = .keying ∧ (t.chan .c2).lead = some 400
      ∧ (t.chan .c2).onAir = some { kind := .bulletin, slot := 21, repetition := 1, resumed := false }
      ∧ t.entryAt 21 = some { due with out := due.out.set .c2 .onAir }
      ∧ u.chan .c2 = { calmChan .hang with pick := .atBoundary } ∧ u.entryAt 21 = some due := by decide

/-- R112: caught up to its third repetition with 600,000 ms elapsed, the entry is taken in the same event. -/
theorem test_next_offer :
    let t := after (.latestStartPassed 21 noBus) (offering .idle [limitAt 15000000 3])
    (t.chan .c2).onAir = some { kind := .bulletin, slot := 21, repetition := 3, resumed := false }
      ∧ (t.chan .c2).state = .keying
      ∧ t.calendar.map (fun e => (e.done, e.left, e.r, e.e, e.out)) =
          [(2, 1, 0, 600000, (pendingOn 0x12).set .c2 .onAir)] := by decide

/-- R118, R49: the head of the queue fits once the withdrawn entry no longer bounds A. -/
theorem test_withdraw_pick :
    let t := after (.withdraw 0 noBus) (withdrawFree .idle 32500 (shipItem .queued))
    let u := after (.withdraw 0 noBus) (withdrawFree .idle 32499 (item .queued))
    let v := after (.withdraw 0 noBus) (withdrawFree .hang 32500 (item .queued))
    (after (.withdraw 0 noBus) (withdrawFree .idle 32500 (item .queued))).telex.map TelexItem.state = [.onAir]
      ∧ (t.chan .c2).state = .idle ∧ (u.chan .c2).state = .idle ∧ u.telex = [item .queued]
      ∧ (v.chan .c2).pick = .atBoundary ∧ (v.chan .c2).state = .hang := by decide

set_option maxRecDepth 4096 in
/-- R110 at an exit: the entry settles with its other channel SENT, and its third repetition is DUE with what is left. -/
theorem test_exit_settles :
    let t := after (.setupExit 0 noBus) (exitSettles 14400000 3)
    t.calendar.map (fun e => (e.done, e.left, e.phase, e.r)) = [(2, 1, some .due, 600000)]
      ∧ t.calendar.map CalEntry.last = [(Six.all .notUsed).set .c5 .missed]
      ∧ (t.chan .c2).state = .off
      ∧ (after (.setupExit 0 noBus) (exitSettles 15000001 3)).rack.backlog.map Answer.result = [.partly, .done] := by
  decide

set_option maxRecDepth 4096 in
/-- R27: the relay goes on until the boundary, with KEY asserted, and the item is answered CLOSED. -/
theorem test_exit_relay :
    let t := after (.setupExit 0 noBus) ((exitRelay .faulted).setChan .c2 (fun ch => { ch with pendingHold := none }))
    (t.chan .c2).offWaits = true ∧ (t.chan .c2).state = .faulted ∧ (t.chan .c2).key = true ∧ t.telex = []
      ∧ (t.prioAt 3).map PrioEntry.out = some relayOnTwo.out
      ∧ t.rack.backlog.map (fun a => (a.slot, a.result)) = [(9, .closed), (0, .done)] := by decide

theorem test_off_relay :
    let t := after (.characterBoundary .c2 noBus) (offRelay .sending 3 (prio true .onAir))
    let u := after (.characterBoundary .c2 noBus) (offRelay .faulted 2 relayOnTwo)
    (t.chan .c2).state = .lockedOut ∧ t.priority = [] ∧ t.rack.backlog.map (fun a => (a.slot, a.result)) = [(3, .closed)]
      ∧ (u.chan .c2).state = .off ∧ (u.chan .c2).key = false ∧ u.priority.map (fun p => p.out.get .c2) = [.notUsed]
      ∧ u.rack.backlog = [] := by decide

set_option maxRecDepth 4096 in
/-- R168: an answer with no progress leaves byte 17 on of its slot, and a sweep leaves the other slots. -/
theorem test_sweep_frame :
    let s := { (withBacklog [answer 5 false]) with mem := [(705, 7), (708, 8), (721, 9), (768, 1), (16448, 5)] }
    let t := after (.sweep noBus) s
    t.slotBytes 5 1 1 = [7] ∧ t.slotBytes 5 4 1 = s.slotBytes 5 4 1 ∧ t.slotBytes 5 17 111 = s.slotBytes 5 17 111
      ∧ t.slotBytes 6 0 128 = s.slotBytes 6 0 128 ∧ Mem.read t.mem 16448 = Mem.read s.mem 16448 := by decide

set_option maxRecDepth 4096 in
/-- Chapter 10.2: a SNAPSHOT answer leaves bytes 6 and 7 of each channel's eight. -/
theorem test_snapshot_frame :
    let a : Answer := { answer 5 false with progress := .snapshot (Six.all
      { state := .held, preset := 3, faults := 1, lastKind := .alarm, queued := 2, onAir := none }) }
    let s := { (withBacklog [a]) with mem := [(758, 7), (799, 9), (800, 4)] }
    let t := after (.sweep noBus) s
    t.slotBytes 5 54 1 = [7] ∧ t.slotBytes 5 55 1 = s.slotBytes 5 55 1 ∧ t.slotBytes 5 95 2 = [9, 4]
      ∧ t.slotBytes 5 56 6 = [ChState.held.code, 3, 1, FaultKind.alarm.code, 2, 255] := by decide

end Sys2Proof.Tests
end

/-! # What a command leaves as it was

`Steady s t` is what almost every command comes to: the clock and the queue of commands stand, no event flag is cleared,
and the invariants of the part are kept. `Kept` (the channels and the owners) and `RackWork` (the Rack Port) are steady,
and there is one lemma for each other change that a command makes: of a register, of the store, and the entry of a
docket's item. -/

namespace Sys2Proof.Machine

/-- From `s` to `t` the clock and the queue of commands stand, no event flag is cleared, and the invariants are kept. -/
structure Steady (s t : State) : Prop where
  pending : t.pending = s.pending
  clock : t.clock = s.clock
  events : ∀ i, s.rack.events.getLsbD i = true → t.rack.events.getLsbD i = true
  sound : s.Sound → t.Sound

variable {s t u : State}

theorem Steady.refl (s : State) : Steady s s := ⟨rfl, rfl, fun _ h => h, fun h => h⟩

theorem Steady.trans (h : Steady s t) (k : Steady t u) : Steady s u :=
  ⟨k.pending.trans h.pending, k.clock.trans h.clock, fun i x => k.events i (h.events i x), fun x => k.sound (h.sound x)⟩

theorem Steady.ite {p : Prop} [Decidable p] (h : Steady s t) (k : Steady s u) : Steady s (if p then t else u) := by
  split
  · exact h
  · exact k

theorem Steady.foldl {α : Type} {f : State → α → State} (hf : ∀ s a, Steady s (f s a)) (l : List α) :
    ∀ s, Steady s (l.foldl f s) := by
  induction l with
  | nil => exact Steady.refl
  | cons a l ih => exact fun s => (hf s a).trans (ih _)

theorem Steady.eachChan {f : Chan → State → State} (hf : ∀ c s, Steady s (f c s)) (cs : List Chan) (s : State) :
    Steady s (eachChan f cs s) := Steady.foldl (fun s c => hf c s) cs s

theorem Kept.steady (h : Kept s t) : Steady s t := ⟨h.pending, h.clock, h.events, h.sound⟩

theorem RackWork.steady (h : RackWork s t) : Steady s t := ⟨h.pending, h.clock, h.events, h.sound⟩

theorem Steady.powered {f : State → State} (h : Steady s (f s)) : Steady s (powered f s) :=
  powered_holds (Steady.refl s) (fun _ => h)

/-! ## Registers, the store, and the counter of free choices -/

/-- The Rack Port's state changed: no flag cleared, and the bases closed while RUN is set. -/
theorem Steady.setRack {r : Rack} (events : ∀ i, s.rack.events.getLsbD i = true → r.events.getLsbD i = true)
    (bases : s.BasesClosedWhileRunning → r.run = true → r.basesOpen = false) : Steady s { s with rack := r } :=
  ⟨rfl, rfl, events, fun h => ⟨h.clock, h.mem, h.capacity, h.faults, bases h.bases, h.once, h.commit⟩⟩

/-- The backlog replaced. -/
theorem Steady.setBacklog (s : State) (l : List Answer) : Steady s { s with rack := { s.rack with backlog := l } } :=
  Steady.setRack (fun _ h => h) (fun h => h)

/-- The Settings Store changed, a COMMIT in it being no older than R184 allows. -/
theorem Steady.setStore {x : Store} (h : s.CommitInTime → ∀ k, x.commit = some k → k.elapsed ≤ commitLimit) :
    Steady s { s with store := x } :=
  ⟨rfl, rfl, fun _ x => x, fun i => ⟨i.clock, i.mem, i.capacity, i.faults, i.bases, i.once, h i.commit⟩⟩

theorem Steady.useChoice (s : State) : Steady s s.useChoice :=
  ⟨rfl, rfl, fun _ x => x, fun i => ⟨i.clock, i.mem, i.capacity, i.faults, i.bases, i.once, i.commit⟩⟩

/-! ## The slots of items and entries -/

/-- The slots of the pool's items, of the calendar and of the Priority List: those that `State.HoldsOnce` has be
different. -/
def State.itemSlots (s : State) : List Nat :=
  s.telex.map TelexItem.slot ++ s.calendar.map CalEntry.slot ++ s.priority.map PrioEntry.slot

theorem RackWork.itemSlots (h : RackWork s t) : t.itemSlots = s.itemSlots := by
  unfold State.itemSlots
  rw [telexSlots_eq, telexSlots_eq, h.telex, h.calendar, h.priority]

/-- A search by slot that finds nothing. -/
theorem slot_not_mem_of_find {α : Type} {key : α → Nat} {l : List α} {slot : Nat}
    (h : (l.find? (fun x => key x == slot)).isSome = false) : slot ∉ l.map key := by
  intro m
  obtain ⟨x, hx, e⟩ := List.mem_map.1 m
  have none := Option.isSome_eq_false_iff.1 h
  exact List.find?_eq_none.1 (Option.isNone_iff_eq_none.1 none) x hx (by simpa using e)

/-- A slot the part does not hold is none of its items' (R164). -/
theorem State.not_mem_itemSlots {slot : Nat} (h : s.holdsSlot slot = false) : slot ∉ s.itemSlots := by
  simp only [State.holdsSlot, Bool.or_eq_false_iff] at h
  obtain ⟨⟨⟨⟨⟨telex, entry⟩, prio⟩, _⟩, _⟩, _⟩ := h
  simp only [State.itemSlots, List.mem_append, not_or]
  exact ⟨⟨slot_not_mem_of_find telex, slot_not_mem_of_find entry⟩, slot_not_mem_of_find prio⟩

/-! ## The entry of a docket's item -/

theorem enqueue_perm (item : TelexItem) (l : List TelexItem) : (enqueue item l).Perm (item :: l) := by
  induction l with
  | nil => exact List.Perm.refl _
  | cons i l ih =>
    unfold enqueue
    split
    · exact List.Perm.refl _
    · exact (ih.cons i).trans (List.Perm.swap item i l)

theorem RackWork.telexRoom {c : Chan} (h : RackWork s t) : t.telexRoom c = s.telexRoom c := by
  have pool : t.telex.length = s.telex.length := by simpa using congrArg List.length h.telex
  have queue : (t.queue c).length = (s.queue c).length := by rw [State.queue_length, State.queue_length, h.telex]
  unfold State.telexRoom
  rw [pool, queue]

/-- An item enters the pool from a slot of which the part holds nothing, with room for it (R69). -/
theorem Steady.joinTelex {item : TelexItem} (free : item.slot ∉ s.itemSlots) (room : s.telexRoom item.channel = true) :
    Steady s { s with telex := enqueue item s.telex } := by
  refine ⟨rfl, rfl, fun _ x => x, fun i => ⟨i.clock, i.mem, ?_, i.faults, i.bases, ?_, i.commit⟩⟩
  · simp only [State.telexRoom, Bool.and_eq_true, decide_eq_true_eq] at room
    obtain ⟨pool, queues, calendar, priority⟩ := i.capacity
    have perm := enqueue_perm item s.telex
    refine ⟨?_, fun c => ?_, calendar, priority⟩
    · have e : (enqueue item s.telex).length = s.telex.length + 1 := perm.length_eq
      show (enqueue item s.telex).length ≤ poolLimit
      omega
    · have e := (perm.filter (fun x => x.channel == c)).length_eq
      show ((enqueue item s.telex).filter (fun x => x.channel == c)).length ≤ queueLimit
      rw [e, List.filter_cons]
      split
      · rename_i same
        have same : item.channel = c := by simpa using same
        subst same
        exact room.2
      · exact queues c
  · have perm : ({ s with telex := enqueue item s.telex } : State).itemSlots.Perm (item.slot :: s.itemSlots) := by
      have p := ((enqueue_perm item s.telex).map TelexItem.slot).append_right (s.calendar.map CalEntry.slot)
      exact p.append_right _
    exact perm.nodup_iff.2 (List.nodup_cons.2 ⟨free, i.once⟩)

/-- An entry enters the calendar from a slot of which the part holds nothing, with room for it (R103). -/
theorem Steady.joinCalendar {e : CalEntry} (free : e.slot ∉ s.itemSlots) (room : s.calendar.length < calendarLimit) :
    Steady s { s with calendar := s.calendar ++ [e] } := by
  refine ⟨rfl, rfl, fun _ x => x, fun i => ⟨i.clock, i.mem, ?_, i.faults, i.bases, ?_, i.commit⟩⟩
  · obtain ⟨pool, queues, _, priority⟩ := i.capacity
    refine ⟨pool, queues, ?_, priority⟩
    show (s.calendar ++ [e]).length ≤ calendarLimit
    rw [List.length_append]
    exact room
  · have perm : ({ s with calendar := s.calendar ++ [e] } : State).itemSlots.Perm (e.slot :: s.itemSlots) := by
      have moved := List.perm_append_singleton e.slot (s.telex.map TelexItem.slot ++ s.calendar.map CalEntry.slot)
      simpa [State.itemSlots] using moved.append_right (s.priority.map PrioEntry.slot)
    exact perm.nodup_iff.2 (List.nodup_cons.2 ⟨free, i.once⟩)

/-- An entry enters the Priority List from a slot of which the part holds nothing, with room for it (R123). -/
theorem Steady.joinPriority {e : PrioEntry} (free : e.slot ∉ s.itemSlots) (room : s.priority.length < priorityLimit) :
    Steady s { s with priority := s.priority ++ [e] } := by
  refine ⟨rfl, rfl, fun _ x => x, fun i => ⟨i.clock, i.mem, ?_, i.faults, i.bases, ?_, i.commit⟩⟩
  · obtain ⟨pool, queues, calendar, _⟩ := i.capacity
    refine ⟨pool, queues, calendar, ?_⟩
    show (s.priority ++ [e]).length ≤ priorityLimit
    rw [List.length_append]
    exact room
  · have perm : ({ s with priority := s.priority ++ [e] } : State).itemSlots.Perm (e.slot :: s.itemSlots) := by
      unfold State.itemSlots
      rw [List.map_append, ← List.append_assoc]
      exact List.perm_append_singleton ..
    exact perm.nodup_iff.2 (List.nodup_cons.2 ⟨free, i.once⟩)

end Sys2Proof.Machine

/-! # The docket commands -/

namespace Sys2Proof.Machine

variable {s t u : State} {bus : Bus} {slot : Nat}

/-- What an owner does at a handover: it is steady on every state that holds nothing of the docket's slot. -/
def OwnerSteady (slot : Nat) (owner : State → State) : Prop := ∀ u, u.holdsSlot slot = false → Steady u (owner u)

/-- A docket command is steady where its owner is: the host's stores, the visits and the end of the event are. -/
theorem OwnerSteady.intake {kind : Option Kind} {owner : State → State} (h : OwnerSteady slot owner) (s : State) :
    Steady s (intake bus slot kind owner s) := by
  have stores : RackWork s (s.hostStores bus) := (RackWork.refl s).hostStores
  unfold Machine.intake
  dsimp only
  split
  · rename_i u e
    obtain ⟨_, _, _, _, free, _⟩ := handedOver_spec e
    exact ((stores.handedOver e).steady.trans (h u free)).trans (Kept.refl _).settleEvent.steady
  · exact stores.steady

/-- An owner that answers the docket, after what is steady, is steady. -/
theorem Steady.answerAtIntake {result : Result} {reason : Option Reason} {progress : Progress} (h : Steady s t) :
    Steady s (answerAtIntake slot result reason progress t) := h.trans (RackWork.refl t).answerAtIntake.steady

theorem Steady.refuse {reason : Reason} (h : Steady s t) : Steady s (refuse slot reason t) := h.answerAtIntake

theorem Steady.answerDone (h : Steady s t) : Steady s (answerDone slot t) := h.answerAtIntake

theorem Steady.holdDocket (s : State) : Steady s (holdDocket s) := (RackWork.refl s).holdDocket.steady

theorem Steady.takeDocket (bus : Bus) (slot : Nat) (s : State) : Steady s (takeDocket bus slot s) :=
  (RackWork.refl s).takeDocket.steady

/-- The taking of a docket and then what the channels and owners do. -/
theorem Steady.ofTaken (h : Kept (Machine.takeDocket bus slot s) t) : Steady s t :=
  (Steady.takeDocket bus slot s).trans h.steady

theorem itemSlots_takeDocket (bus : Bus) (slot : Nat) (s : State) :
    (takeDocket bus slot s).itemSlots = s.itemSlots := (RackWork.refl s).takeDocket.itemSlots

theorem calendar_length_takeDocket (bus : Bus) (slot : Nat) (s : State) :
    (takeDocket bus slot s).calendar.length = s.calendar.length := by
  simpa using congrArg List.length ((RackWork.refl s).takeDocket (bus := bus) (slot := slot)).calendar

theorem priority_length_takeDocket (bus : Bus) (slot : Nat) (s : State) :
    (takeDocket bus slot s).priority.length = s.priority.length := by
  simpa using congrArg List.length ((RackWork.refl s).takeDocket (bus := bus) (slot := slot)).priority

/-! ## TELEX -/

theorem Kept.dropOldReading {c : Chan} (h : Kept s t) : Kept s (dropOldReading c t) := by
  unfold Machine.dropOldReading
  split
  · exact h
  · exact h.setChan (fun ch x => by split <;> exact x)

theorem Steady.enterTelex {c : Chan} {d : TelexDocket} (free : slot ∉ s.itemSlots) (room : s.telexRoom c = true) :
    Steady s (enterTelex slot c d s) :=
  (Steady.joinTelex (item := newTelex slot c d) free room).trans (Kept.refl _).dropOldReading.trigger.steady

theorem telexIntake_steady : OwnerSteady slot (telexIntake bus slot) := by
  intro u free
  unfold telexIntake
  dsimp only
  split
  · exact (Steady.refl u).refuse
  · split
    · rename_i c _ room
      refine (Steady.takeDocket bus slot u).trans (Steady.enterTelex ?_ ?_)
      · rw [itemSlots_takeDocket]
        exact State.not_mem_itemSlots free
      · rw [((RackWork.refl u).takeDocket (bus := bus) (slot := slot)).telexRoom]
        exact room
    · exact Steady.holdDocket u
  · exact (Steady.refl u).refuse

/-! ## BULLETIN, URGENT and DISTRESS -/

theorem Steady.walkThen {page : Nat} {take : State → State} (h : Steady s (take s)) :
    Steady s (walkThen bus slot page take s) := by
  unfold Machine.walkThen
  split
  · exact h
  · exact (Steady.refl s).refuse
  · exact (RackWork.refl s).raise.steady.answerAtIntake

theorem Steady.enterBulletin {d : BulletinDocket} {e : CalEntry} (free : e.slot ∉ s.itemSlots)
    (room : s.calendar.length < calendarLimit) : Steady s (enterBulletin d e s) := by
  unfold Machine.enterBulletin
  split
  · rename_i p _
    unfold enterFollower
    split
    · exact Steady.refl s
    · rename_i l _
      have named : Kept s (s.setEntry p (fun x => { x with role := .leader, partner := some e.slot })) :=
        (Kept.refl s).setEntry
      refine named.steady.trans (Steady.joinCalendar (fun m => free ?_) ?_)
      · have same : (s.setEntry p (fun x => { x with role := .leader, partner := some e.slot })).itemSlots
            = s.itemSlots := by
          unfold State.itemSlots
          rw [State.setEntry_calendar, map_keeps _ _ _ (fun x => by split <;> rfl)]
          rfl
        rw [same] at m
        exact m
      · rw [State.setEntry_calendar, List.length_map]
        exact room
  · unfold enterSingle
    dsimp only
    split
    · exact (Steady.joinCalendar (e := { e with phase := some .due, e := forward e.start s.clock.value, r := _ })
        free room).trans ((Kept.refl _).eachChan (fun _ _ k => k.trigger)).steady
    · exact (Steady.joinCalendar (e := { e with phase := some .waiting })
        free room).trans ((Kept.refl _).eachChan (fun _ _ k => k.compareWait)).steady

theorem bulletinIntake_steady : OwnerSteady slot (bulletinIntake bus slot) := by
  intro u free
  unfold bulletinIntake
  dsimp only
  split
  · exact (Steady.refl u).refuse
  · split
    · exact Steady.holdDocket u
    · rename_i room
      refine Steady.walkThen ((Steady.takeDocket bus slot u).trans (Steady.enterBulletin ?_ ?_))
      · rw [itemSlots_takeDocket]
        exact State.not_mem_itemSlots free
      · rw [calendar_length_takeDocket]
        exact Nat.lt_of_not_le room

theorem Steady.enterPriority {e : PrioEntry} (free : e.slot ∉ s.itemSlots) (room : s.priority.length < priorityLimit) :
    Steady s (enterPriority e s) := by
  unfold Machine.enterPriority
  dsimp only
  split
  · exact (Steady.joinPriority free room).trans
      ((Kept.refl _).eachChan (fun _ _ k => k.offerRelay)).afterPriority.steady
  · exact (Steady.joinPriority free room).trans ((Kept.refl _).eachChan (fun _ _ k => k.trigger)).steady

theorem priorityIntake_steady {distress : Bool} : OwnerSteady slot (priorityIntake bus slot distress) := by
  intro u free
  unfold priorityIntake
  split
  · exact (Steady.refl u).refuse
  · split
    · exact Steady.holdDocket u
    · rename_i room
      refine Steady.walkThen ((Steady.takeDocket bus slot u).trans (Steady.enterPriority ?_ ?_))
      · rw [itemSlots_takeDocket]
        exact State.not_mem_itemSlots free
      · rw [priority_length_takeDocket]
        exact Nat.lt_of_not_le room

/-! ## WITHDRAW -/

theorem withdrawIntake_steady (u : State) : Steady u (withdrawIntake slot u) := by
  unfold Machine.withdrawIntake
  dsimp only
  split
  · unfold withdrawTelex
    dsimp only
    split
    · exact (Steady.refl u).refuse
    · exact (Kept.refl u).endTelex.steady.answerDone
    · exact (Kept.refl u).endTelex.steady.answerDone
    · exact (Kept.refl u).endOnAir.steady.answerDone
    · exact Steady.ite (Kept.refl u).makeEnding.steady.answerDone (Kept.refl u).endOnAir.steady.answerDone
  · exact Steady.ite (Steady.refl u).refuse (Kept.refl u).withdrawEntry.steady.answerDone
  · exact Steady.ite (Steady.refl u).refuse
      (Steady.ite (Steady.refl u).refuse (Kept.refl u).withdrawUrgent.steady.answerDone)
  · exact (Steady.refl u).refuse

/-! ## The dockets of one channel -/

theorem onChannel_steady {f : Chan → State → State} (h : ∀ c u, Steady u (f c u)) (u : State) :
    Steady u (onChannel slot f u) := by
  unfold onChannel
  split
  · exact h _ u
  · exact (Steady.refl u).refuse

theorem holdChannel_steady (c : Chan) (u : State) : Steady u (holdChannel bus slot c u) := by
  have taken : Kept (takeDocket bus slot u) (takeHold bus slot c u) := (Kept.refl _).setChan
  have before : Steady u (holdBeforeText bus slot c u) := by
    unfold holdBeforeText
    split
    · exact Steady.ofTaken (taken.setTelex).handBackFree
    · exact Steady.ofTaken taken
  exact Steady.ite (Steady.refl u).refuse (Steady.ite (Steady.refl u).refuse (Steady.ite (Steady.refl u).answerDone
    (Steady.ite (Steady.ofTaken taken.enterHeld) (Steady.ite before (Steady.ofTaken taken)))))

theorem releaseChannel_steady (c : Chan) (u : State) : Steady u (releaseChannel slot c u) :=
  (Kept.ite (Kept.refl u).enterIdle (Kept.refl u)).steady.answerDone

theorem retuneIntake_steady (c : Chan) (u : State) : Steady u (retuneIntake bus slot c u) := by
  have pending : ∀ preset, Kept (takeDocket bus slot u)
      ((takeDocket bus slot u).setChan c (fun ch => { ch with pendingRetune := some (slot, preset) })) :=
    fun _ => (Kept.refl _).setChan
  exact Steady.ite (Steady.refl u).refuse (Steady.ite (Steady.refl u).refuse (Steady.ite (Steady.refl u).refuse
    (Steady.ite (Steady.holdDocket u) (Steady.ite (Steady.ofTaken (Kept.refl _).enterRetuning)
      (Steady.ite (Steady.ofTaken (pending _).trigger) (Steady.ofTaken (pending _)))))))

theorem clearfaultChannel_steady (c : Chan) (u : State) : Steady u (clearfaultChannel slot c u) :=
  Steady.ite (Steady.ite (Steady.refl u).refuse (Kept.refl u).clearChannel.steady.answerDone) (Steady.refl u).answerDone

theorem quietenChannel_steady (c : Chan) (u : State) : Steady u (quietenChannel slot c u) :=
  (Kept.refl u).setChan.steady.answerDone

/-! ## The Settings Store -/

theorem setupIntake_steady (u : State) : Steady u (setupIntake slot u) := by
  have staged : Steady u { u with store := { u.store with setup := true, staged := some u.store.working } } :=
    Steady.setStore (fun h => h)
  exact Steady.ite (Steady.refl u).refuse (Steady.ite (Steady.refl u).refuse staged.answerDone)

/-- A channel switched OFF apart from the other owners. -/
theorem Steady.apart {f : State → State} (hf : ∀ s, Kept s (f s)) {acc : State × List (List Answer)}
    (h : Steady s acc.1) : Steady s (apart f acc).1 :=
  (h.trans (hf acc.1).steady).trans (Steady.setBacklog _ _)

theorem mergeAnswers_steady : ∀ (n : Nat) (lists : List (List Answer)) (s : State), Steady s (mergeAnswers n lists s)
  | 0, _, s => Steady.refl s
  | n + 1, lists, s => by
    unfold mergeAnswers
    split
    · exact Steady.refl s
    · exact Steady.setBacklog _ _
    · exact ((Steady.useChoice s).trans (Steady.setBacklog _ _)).trans (mergeAnswers_steady n _ _)

theorem switchOffAll_steady (offs : List Chan) (s : State) : Steady s (switchOffAll offs s) := by
  have each : ∀ (cs : List Chan) (acc : State × List (List Answer)), Steady s acc.1 →
      Steady s (cs.foldl (fun acc c => apart (switchOff c) acc) acc).1 := by
    intro cs
    induction cs with
    | nil => exact fun _ h => h
    | cons c cs ih => exact fun acc h => ih _ (h.apart (fun s => (Kept.refl s).switchOff))
  unfold switchOffAll
  dsimp only
  refine Steady.trans ?_ (mergeAnswers_steady _ _ _)
  exact (((each offs (s, []) (Steady.refl s)).apart (fun s => (Kept.refl s).eachChan (fun _ _ k => k.closeQueue))).apart
    (fun s => (Kept.refl s).calendarLoses)).apart (fun s => (Kept.refl s).priorityLoses)

theorem LineSection.newAux_faults (old new : ChanSettings) (l : LineSection) :
    (l.newAux old new).faults = l.faults := by
  unfold LineSection.newAux
  split <;> rfl

theorem leaveSetup_steady (staged : Image) (s : State) : Steady s (leaveSetup staged s) := by
  have forced : Steady s { s with store := { s.store with working := staged, staged := none, setup := false } } :=
    Steady.setStore (fun h => h)
  have off := forced.trans (switchOffAll_steady (switched s.store.working staged false) _)
  unfold leaveSetup
  refine off.trans (Kept.steady (Kept.eachChan (Kept.eachChan (Kept.eachChan (Kept.eachChan (Kept.refl _) ?on) ?aux)
    ?judge) ?reach))
  case on => exact fun _ _ k => k.switchOn
  case aux => exact fun _ _ k => k.setChan (fun ch x => by rw [LineSection.newAux_faults]; exact x)
  case judge => exact fun _ _ k => k.rejudge
  case reach => exact fun _ _ k => k.trigger.compareWait

theorem setupExitIntake_steady (u : State) : Steady u (setupExitIntake slot u) := by
  unfold setupExitIntake
  split
  · exact (leaveSetup_steady _ u).answerDone
  · exact (Steady.refl u).refuse

theorem settingsReadIntake_steady (u : State) : Steady u (settingsReadIntake bus slot u) := by
  unfold settingsReadIntake
  dsimp only
  split
  · exact (Steady.refl u).refuse
  · split
    · exact (RackWork.refl u).storeAt.raise.steady.answerAtIntake
    · exact (RackWork.refl u).storeAt.steady.answerAtIntake

theorem settingsWriteIntake_steady (u : State) : Steady u (settingsWriteIntake bus slot u) := by
  have staged : ∀ img, Steady u { u with store := { u.store with staged := some img } } :=
    fun _ => Steady.setStore (fun h => h)
  exact Steady.ite (Steady.refl u).refuse (Steady.ite (Steady.refl u).refuse
    (Steady.ite (RackWork.refl u).raise.steady.answerAtIntake (staged _).answerAtIntake))

theorem commitIntake_steady (u : State) : Steady u (commitIntake bus slot u) := by
  have begun : Steady u (beginCommit slot (takeDocket bus slot u)) :=
    (Steady.takeDocket bus slot u).trans (Steady.setStore (fun _ k e => by cases e; exact Nat.zero_le _))
  exact Steady.ite (Steady.holdDocket u) (Steady.ite (Steady.refl u).refuse (Steady.ite (Steady.refl u).refuse begun))

end Sys2Proof.Machine

/-! # The other commands, and what every command keeps -/

namespace Sys2Proof.Machine

variable {s t u : State} {bus : Bus}

/-! ## The registers and the sweep -/

theorem Steady.hostStores (bus : Bus) (s : State) : Steady s (s.hostStores bus) := (RackWork.refl s).hostStores.steady

theorem execSetRun_steady (sweep : Bool) (bus : Bus) (s : State) :
    ∃ t, execSetRun sweep bus s = .next t ∧ Steady s t := by
  refine ⟨_, rfl, Steady.powered ?_⟩
  have asks : ∀ u, Steady u (requestSweep bus u) := fun u => (RackWork.refl u).requestSweep.steady
  have runs : ∀ u : State, Steady u { u with rack := { u.rack with run := true, basesOpen := false } } :=
    fun u => Steady.setRack (fun _ x => x) (fun _ _ => rfl)
  exact (Steady.hostStores bus s).trans
    (Steady.ite (Steady.ite (asks _) (Steady.refl _)) ((runs _).trans (asks _)))

theorem execClearRun_steady (s : State) : ∃ t, execClearRun s = .next t ∧ Steady s t := by
  have stops : Steady s { s with rack := { s.rack with run := false, sweepTimer := none, latch := false } } :=
    Steady.setRack (fun _ x => x) (fun _ x => by cases x)
  exact ⟨_, rfl, Steady.powered (Steady.ite stops (Steady.refl s))⟩

theorem execSweep_steady (bus : Bus) (s : State) : ∃ t, execSweep bus s = .next t ∧ Steady s t :=
  ⟨_, rfl, Steady.powered ((Steady.hostStores bus s).trans
    (Steady.ite (RackWork.refl _).requestSweep.steady (Steady.refl _)))⟩

theorem execMaskWrite_steady (value : Word) (s : State) : ∃ t, execMaskWrite value s = .next t ∧ Steady s t :=
  ⟨_, rfl, Steady.powered (Steady.setRack (fun _ x => x) (fun h => h))⟩

theorem execRackBaseWrite_steady (value : Word) (s : State) : ∃ t, execRackBaseWrite value s = .next t ∧ Steady s t :=
  ⟨_, rfl, Steady.powered (Steady.ite (Steady.setRack (fun _ x => x) (fun h => h)) (Steady.refl s))⟩

theorem execPageBaseWrite_steady (value : Word) (s : State) : ∃ t, execPageBaseWrite value s = .next t ∧ Steady s t :=
  ⟨_, rfl, Steady.powered (Steady.ite (Steady.setRack (fun _ x => x) (fun h => h)) (Steady.refl s))⟩

theorem execSweepTimerExpiry_steady (bus : Bus) (s : State) :
    ∃ t, execSweepTimerExpiry bus s = .next t ∧ Steady s t :=
  ⟨_, rfl, Steady.powered ((Steady.hostStores bus s).trans
    (Steady.ite (RackWork.refl _).startSweep.steady (Steady.refl _)))⟩

/-! ## The channels, their timers and lines, and the clock's arrivals and limits -/

/-- An event of the channels and owners: the host's stores, what they do, and the end of the event. -/
theorem Steady.event (h : Kept (s.hostStores bus) t) : Steady s (settleEvent bus t) :=
  (Steady.hostStores bus s).trans h.settleEvent.steady

theorem walkRuns_steady (c : Chan) (s : State) : Steady s (walkRuns bus c s) := by
  unfold walkRuns
  split
  · exact Steady.refl s
  · exact ((Kept.refl s).markingWalk.steady.trans (RackWork.refl _).walkStopped.steady).trans
      (Kept.refl _).setChan.steady

/-! ## Resets and power -/

theorem abandonWalk_steady (c : Chan) (s : State) : Steady s (abandonWalk c s) := by
  unfold abandonWalk
  split
  · exact Steady.refl s
  · exact (Steady.useChoice s).trans (Kept.refl _).markingWalk.steady

theorem abandonWalks_steady (s : State) : Steady s (abandonWalks s) := Steady.eachChan abandonWalk_steady Chan.all s

/-- The invariants of a card that holds no items and no COMMIT, and has RUN clear. -/
theorem State.Sound.of_empty (clock : s.ClockInRange) (mem : s.MemoryCanonical) (faults : s.FaultsInRange)
    (run : s.rack.run = false) (telex : s.telex = []) (calendar : s.calendar = []) (priority : s.priority = [])
    (commit : s.store.commit = none) : s.Sound where
  clock := clock
  mem := mem
  faults := faults
  capacity := by
    unfold State.WithinCapacity State.queue
    rw [telex, calendar, priority]
    exact ⟨Nat.zero_le _, fun _ => Nat.zero_le _, Nat.zero_le _, Nat.zero_le _⟩
  bases := fun x => by rw [run] at x; cases x
  once := by
    unfold State.HoldsOnce
    rw [telex, calendar, priority]
    exact List.nodup_nil
  commit := fun k x => by rw [commit] at x; cases x

theorem partReset_chan (s : State) (c : Chan) : (partReset s).chan c =
    Channel.partReset (ItemSettings.ofImage (partReset s).store.working c)
      ((partReset s).store.working.chan.get c).enabled ((abandonWalks s).chan c) := Six.get_ofFn ..

theorem partReset_sound (h : s.Sound) : (partReset s).Sound := by
  have walked := (abandonWalks_steady s).sound h
  refine State.Sound.of_empty walked.clock walked.mem (fun c => ?_) rfl rfl rfl rfl rfl
  rw [partReset_chan]
  exact walked.faults c

/-- From `s` to `t` the clock and the queue of commands stand and the invariants are kept: what a command comes to that
may clear event flags. -/
structure Timeless (s t : State) : Prop where
  pending : t.pending = s.pending
  clock : t.clock = s.clock
  sound : s.Sound → t.Sound

theorem Steady.timeless (h : Steady s t) : Timeless s t := ⟨h.pending, h.clock, h.sound⟩

theorem Timeless.trans (h : Timeless s t) (k : Timeless t u) : Timeless s u :=
  ⟨k.pending.trans h.pending, k.clock.trans h.clock, fun x => k.sound (h.sound x)⟩

theorem Timeless.powered {f : State → State} (h : Timeless s (f s)) : Timeless s (powered f s) :=
  powered_holds (Steady.refl s).timeless (fun _ => h)

theorem partReset_timeless (s : State) : Timeless s (partReset s) :=
  ⟨(abandonWalks_steady s).pending, (abandonWalks_steady s).clock, partReset_sound⟩

theorem requestReset_timeless (s : State) : Timeless s (requestReset s) := by
  have waits : Steady s { s with store := { s.store with resetWaits := true } } := Steady.setStore (fun h => h)
  unfold requestReset
  split
  · exact waits.timeless
  · exact partReset_timeless s

theorem commitEnds_steady (k : Commit) (success : Bool) (s : State) : Steady s (commitEnds k success s) := by
  have stored : ∀ x : Store, x.commit = none → Steady s { s with store := x } :=
    fun x e => Steady.setStore (fun _ k h => by rw [e] at h; cases h)
  unfold commitEnds
  split
  · exact (stored _ rfl).trans (Kept.refl _).answerTaken.steady
  · exact (stored _ rfl).trans (Kept.refl _).answerTaken.raise.steady

theorem execResetInput_timeless (present : Bool) (s : State) :
    ∃ t, execResetInput present s = .next t ∧ Timeless s t := by
  have level : Timeless s { s with resetPin := present } :=
    ⟨rfl, rfl, fun i => ⟨i.clock, i.mem, i.capacity, i.faults, i.bases, i.once, i.commit⟩⟩
  refine ⟨_, rfl, ?_⟩
  split
  · exact level.trans (requestReset_timeless _).powered
  · exact level

theorem execControlReset_timeless (run sweep : Bool) (s : State) :
    ∃ t, execControlReset run sweep s = .next t ∧ Timeless s t := ⟨_, rfl, (requestReset_timeless s).powered⟩

theorem execCommitCompletion_timeless (success : Bool) (s : State) :
    ∃ t, execCommitCompletion success s = .next t ∧ Timeless s t := by
  refine ⟨_, rfl, Timeless.powered ?_⟩
  dsimp only
  split
  · exact (Steady.refl s).timeless
  · rename_i k _
    have ended := (commitEnds_steady k success s).timeless
    split
    · exact (Steady.refl s).timeless
    · split
      · exact ended.trans (partReset_timeless _)
      · exact ended

theorem execStatusWrite_timeless (value : Word) (s : State) :
    ∃ t, execStatusWrite value s = .next t ∧ Timeless s t := by
  have cleared : ∀ r : Rack, r.run = s.rack.run → r.basesOpen = s.rack.basesOpen → Timeless s { s with rack := r } :=
    fun r run bases => ⟨rfl, rfl, fun i => ⟨i.clock, i.mem, i.capacity, i.faults,
      fun x => by
        show r.basesOpen = false
        rw [bases]
        exact i.bases (run ▸ x), i.once, i.commit⟩⟩
  exact ⟨_, rfl, (cleared { s.rack with events := s.rack.events &&& ~~~value } rfl rfl).powered⟩

theorem powerDown_sound (h : s.Sound) : (powerDown s).Sound :=
  State.Sound.of_empty (by decide : 0 < dayMs) ((abandonWalks_steady s).sound h).mem
    (fun c => by cases c <;> exact Nat.zero_le 3) rfl rfl rfl rfl rfl

theorem powerDown_pending (s : State) : (powerDown s).pending = s.pending := (abandonWalks_steady s).pending

theorem Channel.powerOn_line (img : Image) (c : Chan) : (Channel.powerOn img c).line = LineSection.powerOn := by
  unfold Channel.powerOn
  dsimp only
  split <;> rfl

theorem powerUp_chan (s : State) (c : Chan) : (powerUp s).chan c = Channel.powerOn (powerUp s).store.working c :=
  Six.get_ofFn ..

theorem powerUp_sound (h : s.Sound) : (powerUp s).Sound := by
  refine State.Sound.of_empty (by decide : 0 < dayMs) (powerDown_sound h).mem (fun c => ?_) rfl rfl rfl rfl rfl
  rw [powerUp_chan, Channel.powerOn_line]
  exact Nat.zero_le 3

/-! ## The clock -/

theorem Clock.tick_value_lt {k : Clock} (h : k.value < dayMs) : k.tick.value < dayMs := by
  unfold Clock.tick
  dsimp only
  split <;> omega

@[simp] theorem tick_chan (s : State) (c : Chan) : (tick s).chan c = (s.chan c).tick := Six.get_ofFn ..

theorem tick_sound (h : s.Sound) : (tick s).Sound where
  clock := Clock.tick_value_lt h.clock
  mem := h.mem
  capacity := by
    obtain ⟨pool, queues, calendar, priority⟩ := h.capacity
    exact ⟨pool, queues, Nat.le_trans (Nat.le_of_eq (List.length_map ..)) calendar,
      Nat.le_trans (Nat.le_of_eq (List.length_map ..)) priority⟩
  faults := fun c => by rw [tick_chan]; exact h.faults c
  bases := h.bases
  once := by
    have calendar : (tick s).calendar.map CalEntry.slot = s.calendar.map CalEntry.slot := map_keeps _ _ _ (fun _ => rfl)
    have priority : (tick s).priority.map PrioEntry.slot = s.priority.map PrioEntry.slot :=
      map_keeps _ _ _ (fun _ => rfl)
    unfold State.HoldsOnce
    rw [calendar, priority]
    exact h.once
  commit := fun k e => by
    obtain ⟨_, _, rfl⟩ := Option.map_eq_some_iff.1 e
    exact Nat.min_le_right ..

end Sys2Proof.Machine

/-! # The clock, and every command -/

namespace Sys2Proof.Machine

variable {s t u : State} {bus : Bus}

theorem Kept.jumpReaches {b : Bool} {c : Chan} (h : Kept s t) : Kept s (jumpReaches b c t) :=
  Kept.ite h.trigger.compareWait h.trigger

/-- A SETCLOCK carried out is what the calendar and the channels do once the clock has its new value. -/
theorem Kept.setClock (new : Nat) (s : State) :
    Kept { s with clock := { value := new, isSet := true } } (setClock new s) :=
  ((Kept.refl _).jumpCalendar).eachChan (fun _ _ k => k.jumpReaches)

/-- From `s` to `t` the queue of commands stands, a clock that was SET is SET, no event flag is cleared, and the
invariants are kept: what a command comes to that may move the clock. -/
structure Carried (s t : State) : Prop where
  pending : t.pending = s.pending
  isSet : s.clock.isSet = true → t.clock.isSet = true
  events : ∀ i, s.rack.events.getLsbD i = true → t.rack.events.getLsbD i = true
  sound : s.Sound → t.Sound

theorem Steady.carried (h : Steady s t) : Carried s t :=
  ⟨h.pending, fun x => by rw [h.clock]; exact x, h.events, h.sound⟩

theorem Carried.trans (h : Carried s t) (k : Carried t u) : Carried s u :=
  ⟨k.pending.trans h.pending, fun x => k.isSet (h.isSet x), fun i x => k.events i (h.events i x),
    fun x => k.sound (h.sound x)⟩

theorem Carried.powered {f : State → State} (h : Carried s (f s)) : Carried s (powered f s) :=
  powered_holds (Steady.refl s).carried (fun _ => h)

theorem tick_carried (s : State) : Carried s (tick s) := ⟨rfl, fun h => h, fun _ h => h, tick_sound⟩

theorem setClock_carried {new : Nat} (h : new < dayMs) (s : State) : Carried s (setClock new s) := by
  have moved : Carried s { s with clock := { value := new, isSet := true } } :=
    ⟨rfl, fun _ => rfl, fun _ x => x, fun i => ⟨h, i.mem, i.capacity, i.faults, i.bases, i.once, i.commit⟩⟩
  exact moved.trans (Kept.setClock new s).steady.carried

theorem setclockIntake_carried (slot : Nat) (s : State) : Carried s (setclockIntake slot s) := by
  unfold setclockIntake
  dsimp only
  split
  · exact (Steady.refl s).refuse.carried
  · rename_i inDay
    exact (setClock_carried (Nat.lt_of_not_le inDay) s).trans (Steady.refl _).answerDone.carried

theorem intake_setclock_carried (bus : Bus) (slot : Nat) (s : State) :
    Carried s (intake bus slot (some .setclock) (setclockIntake slot) s) := by
  have stores : RackWork s (s.hostStores bus) := (RackWork.refl s).hostStores
  unfold intake
  dsimp only
  split
  · rename_i u e
    exact ((stores.handedOver e).steady.carried.trans (setclockIntake_carried slot u)).trans
      (Kept.refl _).settleEvent.steady.carried
  · exact stores.steady.carried

/-! ## Every command -/

/-- The commands that neither move the clock nor clear an event flag: all but power, the resets and the completion of a
COMMIT that may bring one, STATUS_WRITE, the tick, and SETCLOCK. -/
def leavesClockAndFlags : Instr → Bool
  | .powerOn | .powerLoss | .resetInput _ | .controlReset _ _ | .commitCompletion _ | .statusWrite _
  | .stationClockTick | .setclock _ _ => false
  | _ => true

/-- A docket command whose owner is steady. -/
theorem docket_steady {slot : Nat} {owner : State → State} (h : OwnerSteady slot owner) (bus : Bus)
    (kind : Option Kind) (s : State) :
    ∃ t, (Host.Outcome.next (powered (intake bus slot kind owner) s) : Host.Outcome State Fault Refusal) = .next t
      ∧ Steady s t := ⟨_, rfl, (h.intake s).powered⟩

/-- An event of the channels and owners, as a command. -/
theorem event_steady {f : State → State} (hf : ∀ s, Kept s (f s)) (bus : Bus) (s : State) :
    ∃ t, (Host.Outcome.next (powered (fun s => settleEvent bus (f (s.hostStores bus))) s)
        : Host.Outcome State Fault Refusal) = .next t ∧ Steady s t :=
  ⟨_, rfl, Steady.powered (Steady.event (hf _))⟩

/-- A command of the channels and owners to which the host bus brings nothing. -/
theorem plain_steady {f : State → State} (hf : Kept s (f s)) :
    ∃ t, (Host.Outcome.next (powered f s) : Host.Outcome State Fault Refusal) = .next t ∧ Steady s t :=
  ⟨_, rfl, Steady.powered hf.steady⟩

/-- Every command but the eight that may move the clock or clear a flag is steady. -/
theorem exec_steady (i : Instr) (s : State) (h : leavesClockAndFlags i = true) :
    ∃ t, exec i s = .next t ∧ Steady s t := by
  cases i with
  | powerOn | powerLoss | resetInput | controlReset | commitCompletion | statusWrite | stationClockTick | setclock =>
    cases h
  | setRun sweep bus => exact execSetRun_steady sweep bus s
  | clearRun => exact execClearRun_steady s
  | sweep bus => exact execSweep_steady bus s
  | maskWrite value => exact execMaskWrite_steady value s
  | rackBaseWrite value => exact execRackBaseWrite_steady value s
  | pageBaseWrite value => exact execPageBaseWrite_steady value s
  | sweepTimerExpiry bus => exact execSweepTimerExpiry_steady bus s
  | sweepEnd bus => exact ⟨_, rfl, Steady.powered (RackWork.refl s).hostStores.sweepEnds.steady⟩
  | telex slot bus => exact docket_steady telexIntake_steady bus _ s
  | bulletin slot bus => exact docket_steady bulletinIntake_steady bus _ s
  | urgent slot bus => exact docket_steady priorityIntake_steady bus _ s
  | distress slot bus => exact docket_steady priorityIntake_steady bus _ s
  | withdraw slot bus => exact docket_steady (fun u _ => withdrawIntake_steady u) bus _ s
  | hold slot bus => exact docket_steady (fun u _ => onChannel_steady holdChannel_steady u) bus _ s
  | release slot bus => exact docket_steady (fun u _ => onChannel_steady releaseChannel_steady u) bus _ s
  | retune slot bus => exact docket_steady (fun u _ => onChannel_steady retuneIntake_steady u) bus _ s
  | clearfault slot bus => exact docket_steady (fun u _ => onChannel_steady clearfaultChannel_steady u) bus _ s
  | quieten slot bus => exact docket_steady (fun u _ => onChannel_steady quietenChannel_steady u) bus _ s
  | snapshot slot bus => exact docket_steady (fun u _ => (Steady.refl u).answerAtIntake) bus _ s
  | setup slot bus => exact docket_steady (fun u _ => setupIntake_steady u) bus _ s
  | setupExit slot bus => exact docket_steady (fun u _ => setupExitIntake_steady u) bus _ s
  | settingsRead slot bus => exact docket_steady (fun u _ => settingsReadIntake_steady u) bus _ s
  | settingsWrite slot bus => exact docket_steady (fun u _ => settingsWriteIntake_steady u) bus _ s
  | commit slot bus => exact docket_steady (fun u _ => commitIntake_steady u) bus _ s
  | badKind slot bus => exact docket_steady (fun u _ => (Steady.refl u).refuse) bus _ s
  | startTimeExpiry bus => exact event_steady (fun s => (Kept.refl s).startTimes) bus s
  | latestStartPassed slot bus => exact event_steady (fun s => (Kept.refl s).latestStart) bus s
  | urgentLimitPassed slot => exact plain_steady (Kept.refl s).urgentLimit
  | characterBoundary c bus => exact event_steady (fun s => (Kept.refl s).characterBoundary) bus s
  | keyUpLeadExpiry c bus => exact event_steady (fun s => (Kept.refl s).leadExpires) bus s
  | hangExpiry c bus =>
    exact ⟨_, rfl, Steady.powered ((Steady.hostStores bus s).trans
      (Kept.ite (Kept.refl _).hangExpires.settleEvent (Kept.refl _)).steady)⟩
  | tuneStrobeExpiry c => exact plain_steady (Kept.refl s).setChan
  | retuneLimitExpiry c => exact plain_steady (Kept.refl s).retuneFails.settleEvent
  | answerbackTimeout c bus => exact event_steady (fun s => (Kept.refl s).answerbackExpires) bus s
  | closingCheckTimeout c bus => exact event_steady (fun s => (Kept.refl s).closingExpires) bus s
  | rxdCodeArrival c code bus => exact event_steady (fun s => (Kept.refl s).rxdArrives) bus s
  | lineCheck c ready alarm aux bus => exact event_steady (fun s => (Kept.refl s).lineChecks) bus s
  | quietPeriodExpiry c bus => exact event_steady (fun s => (Kept.refl s).quietExpires) bus s
  | lookaheadWaitThreshold c => exact plain_steady (Kept.refl s).compareWait
  | starvationExpiry c =>
    exact plain_steady ((Kept.refl s).setChan (fun ch x => by unfold Channel.starve; split <;> exact x))
  | pageRereadTimerExpiry c => exact plain_steady ((Kept.refl s).setChan (fun ch x => by dsimp only; split <;> exact x))
  | telexPageRead c bus => exact event_steady (fun s => (Kept.refl s).telexPageReads) bus s
  | bulletinPageRead c bus => exact event_steady (fun s => (Kept.refl s).bodyPageReads) bus s
  | markingWalkEnd c bus =>
    exact ⟨_, rfl, Steady.powered ((Steady.hostStores bus s).trans (walkRuns_steady c _))⟩

theorem execStationClockTick_carried (s : State) : ∃ t, execStationClockTick s = .next t ∧ Carried s t :=
  ⟨_, rfl, (tick_carried s).powered⟩

theorem execSetclock_carried (slot : Nat) (bus : Bus) (s : State) :
    ∃ t, execSetclock slot bus s = .next t ∧ Carried s t := ⟨_, rfl, (intake_setclock_carried bus slot s).powered⟩

theorem execPowerLoss_leaves (s : State) :
    ∃ t, execPowerLoss s = .next t ∧ t.pending = s.pending ∧ (s.Sound → t.Sound) :=
  ⟨_, rfl, powered_holds (P := fun t => t.pending = s.pending ∧ (s.Sound → t.Sound)) ⟨rfl, fun h => h⟩
    (fun _ => ⟨powerDown_pending s, powerDown_sound⟩)⟩

/-- What every command does: it is carried out, leaves the queue of commands alone, and keeps the invariants. -/
theorem exec_leaves (i : Instr) (s : State) :
    ∃ t, exec i s = .next t ∧ t.pending = s.pending ∧ (s.Sound → t.Sound) := by
  by_cases h : leavesClockAndFlags i = true
  · obtain ⟨t, e, k⟩ := exec_steady i s h
    exact ⟨t, e, k.pending, k.sound⟩
  · have timeless : (∃ t, exec i s = .next t ∧ Timeless s t) → ∃ t, exec i s = .next t ∧ t.pending = s.pending
        ∧ (s.Sound → t.Sound) := fun ⟨t, e, k⟩ => ⟨t, e, k.pending, k.sound⟩
    have carried : (∃ t, exec i s = .next t ∧ Carried s t) → ∃ t, exec i s = .next t ∧ t.pending = s.pending
        ∧ (s.Sound → t.Sound) := fun ⟨t, e, k⟩ => ⟨t, e, k.pending, k.sound⟩
    cases i with
    | powerOn => exact ⟨_, rfl, powerDown_pending s, powerUp_sound⟩
    | powerLoss => exact execPowerLoss_leaves s
    | resetInput present => exact timeless (execResetInput_timeless present s)
    | controlReset run sweep => exact timeless (execControlReset_timeless run sweep s)
    | commitCompletion success => exact timeless (execCommitCompletion_timeless success s)
    | statusWrite value => exact timeless (execStatusWrite_timeless value s)
    | stationClockTick => exact carried (execStationClockTick_carried s)
    | setclock slot bus => exact carried (execSetclock_carried slot bus s)
    | _ => exact absurd rfl h

end Sys2Proof.Machine

/-! ## The statements about every command and every step -/

namespace Sys2Proof.Machine

/-- Settles O57: a step is the command at the front of the queue, and every command keeps the invariants. -/
theorem stepKeepsInvariants : Obligations.StepKeepsInvariants := by
  intro s t sound next
  unfold step at next
  split at next
  · cases next
    exact sound
  · rename_i i _ _
    obtain ⟨t', e, _, keeps⟩ := exec_leaves i s.dequeue
    rw [e] at next
    cases next
    exact keeps ⟨sound.clock, sound.mem, sound.capacity, sound.faults, sound.bases, sound.once, sound.commit⟩

/-- Settles O60: a steady command leaves all three alone, and of the eight others each leaves what the statement says
of it. -/
theorem commandsLeaveClockFlagsAndQueue : Obligations.CommandsLeaveClockFlagsAndQueue := by
  intro i s
  by_cases h : leavesClockAndFlags i = true
  · obtain ⟨t, e, k⟩ := exec_steady i s h
    exact ⟨t, e, k.pending, fun _ _ => ⟨k.carried.isSet, fun _ _ => k.clock, fun _ _ _ _ => k.events⟩⟩
  · cases i with
    | powerOn => exact ⟨_, rfl, powerDown_pending s, fun on _ => absurd rfl on⟩
    | powerLoss =>
      obtain ⟨t, e, queue, _⟩ := execPowerLoss_leaves s
      exact ⟨t, e, queue, fun _ off => absurd rfl off⟩
    | resetInput present =>
      obtain ⟨t, e, k⟩ := execResetInput_timeless present s
      exact ⟨t, e, k.pending, fun _ _ => ⟨fun x => by rw [k.clock]; exact x, fun _ _ => k.clock,
        fun _ _ input _ => absurd rfl (input present)⟩⟩
    | controlReset run sweep =>
      obtain ⟨t, e, k⟩ := execControlReset_timeless run sweep s
      exact ⟨t, e, k.pending, fun _ _ => ⟨fun x => by rw [k.clock]; exact x, fun _ _ => k.clock,
        fun _ control _ _ => absurd rfl (control run sweep)⟩⟩
    | commitCompletion success =>
      obtain ⟨t, e, k⟩ := execCommitCompletion_timeless success s
      exact ⟨t, e, k.pending, fun _ _ => ⟨fun x => by rw [k.clock]; exact x, fun _ _ => k.clock,
        fun _ _ _ completion => absurd rfl (completion success)⟩⟩
    | statusWrite value =>
      obtain ⟨t, e, k⟩ := execStatusWrite_timeless value s
      exact ⟨t, e, k.pending, fun _ _ => ⟨fun x => by rw [k.clock]; exact x, fun _ _ => k.clock,
        fun status _ _ _ => absurd rfl (status value)⟩⟩
    | stationClockTick =>
      obtain ⟨t, e, k⟩ := execStationClockTick_carried s
      exact ⟨t, e, k.pending, fun _ _ => ⟨k.isSet, fun tick _ => absurd rfl tick, fun _ _ _ _ => k.events⟩⟩
    | setclock slot bus =>
      obtain ⟨t, e, k⟩ := execSetclock_carried slot bus s
      exact ⟨t, e, k.pending, fun _ _ => ⟨k.isSet, fun _ set => absurd rfl (set slot bus), fun _ _ _ _ => k.events⟩⟩
    | _ => exact absurd rfl h

/-- Settles O56: after reset the card holds no items, RUN is clear, no fault is counted, and memory is empty. -/
theorem resetMeetsInvariants : Obligations.ResetMeetsInvariants :=
  State.Sound.of_empty (by decide : 0 < dayMs) State.reset_mem_wf (fun c => by cases c <;> exact Nat.zero_le 3)
    rfl rfl rfl rfl rfl

end Sys2Proof.Machine

/-! # Times of day, available time, and the tick -/

namespace Sys2Proof.Machine

/-! ## The forward distance (R10) -/

theorem forward_eq {x y : Nat} (hx : x < dayMs) (hy : y < dayMs) :
    forward x y = if x ≤ y then y - x else y + dayMs - x := by
  unfold forward
  unfold dayMs at *
  split <;> omega

theorem forward_lt (x y : Nat) : forward x y < dayMs := Nat.mod_lt _ (by decide)

theorem forward_self {x : Nat} (h : x < dayMs) : forward x x = 0 := by
  rw [forward_eq h h, if_pos (Nat.le_refl x), Nat.sub_self]

theorem add_forward {x y : Nat} (hx : x < dayMs) (hy : y < dayMs) : (x + forward x y) % dayMs = y := by
  rw [forward_eq hx hy]
  unfold dayMs at *
  split <;> omega

theorem forward_add_forward {x y : Nat} (hx : x < dayMs) (hy : y < dayMs) (h : x ≠ y) :
    forward x y + forward y x = dayMs := by
  rw [forward_eq hx hy, forward_eq hy hx]
  split <;> split <;> omega

theorem jumpForward_iff {jump : Nat} : jumpForward jump = true ↔ jump < 43200000 := decide_eq_true_iff

/-- A jump over no time passes over no start time. -/
theorem jumpCalendar_self {v : Nat} (h : v < dayMs) (s : State) : jumpCalendar v v s = s := by
  have none : ∀ (l : List CalEntry), l.foldl (fun s e =>
      if e.awaits && decide (1 ≤ forward v e.start) && decide (forward v e.start ≤ 0) then
        place e.slot (forward e.start v) (s.setEntry e.slot CalEntry.fresh)
      else s) s = s := by
    intro l
    induction l with
    | nil => rfl
    | cons e l ih =>
      have out : (e.awaits && decide (1 ≤ forward v e.start) && decide (forward v e.start ≤ 0)) = false := by
        have none : (decide (1 ≤ forward v e.start) && decide (forward v e.start ≤ 0)) = false := by
          rw [Bool.and_eq_false_iff, decide_eq_false_iff_not, decide_eq_false_iff_not]
          omega
        rw [Bool.and_assoc, none, Bool.and_false]
      rw [List.foldl_cons, out]
      exact ih
  unfold jumpCalendar
  rw [forward_self h]
  exact none _

/-- Settles O12, from the forward distance written out by which of the two times is the later. -/
theorem forwardDistanceAndJumpDirection : Obligations.ForwardDistanceAndJumpDirection := by
  refine ⟨fun x y hx hy => ⟨forward_lt x y, add_forward hx hy, ?_, ?_, forward_self hx, forward_add_forward hx hy⟩,
    fun j _ => ⟨jumpForward_iff.2, ?_⟩, fun v s hv => ?_, fun e => ⟨rfl, Nat.mod_lt _ (by decide), ?_⟩⟩
  · intro h
    rw [forward_eq hx hy, if_pos h]
  · intro h
    rw [forward_eq hx hy, if_neg (Nat.not_le_of_lt h)]
  · intro h
    exact decide_eq_false (Nat.not_lt_of_le h)
  · have inDay : v < dayMs := Nat.lt_succ_of_le hv
    exact ⟨forward_self inDay, jumpCalendar_self inDay s⟩
  · show (e.start + 1 * e.interval) % dayMs = (e.start + e.interval) % dayMs
    rw [Nat.one_mul]

/-! ## The available time (R11) -/

/-- The nearest pair is of the list; none is nearer, and of those as near none has a larger guard. -/
theorem nearest_some {l : List (Nat × Nat)} : ∀ {p : Nat × Nat}, nearest l = some p →
    p ∈ l ∧ ∀ q ∈ l, p.1 ≤ q.1 ∧ (q.1 = p.1 → q.2 ≤ p.2) := by
  induction l with
  | nil => intro p h; cases h
  | cons x l ih =>
    intro p h
    unfold nearest at h
    split at h
    · rename_i none
      cases h
      have empty : l = [] := by
        cases l with
        | nil => rfl
        | cons y l =>
          unfold nearest at none
          split at none <;> cases none
      subst empty
      simp
    · rename_i q found
      obtain ⟨mem, least⟩ := ih found
      have chosen : (p = x ∨ p = q) ∧ (p.1 ≤ x.1 ∧ (x.1 = p.1 → x.2 ≤ p.2))
          ∧ (p.1 ≤ q.1 ∧ (q.1 = p.1 → q.2 ≤ p.2)) := by
        cases h
        unfold nearer
        split
        · exact ⟨.inr rfl, by omega, by omega⟩
        · split
          · split
            · exact ⟨.inr rfl, by omega, by omega⟩
            · exact ⟨.inl rfl, by omega, by omega⟩
          · exact ⟨.inl rfl, by omega, by omega⟩
      obtain ⟨which, toX, toQ⟩ := chosen
      refine ⟨?_, fun r hr => ?_⟩
      · rcases which with rfl | rfl
        · exact List.mem_cons_self ..
        · exact List.mem_cons_of_mem _ mem
      · rcases List.mem_cons.1 hr with rfl | hr
        · exact toX
        · have := least r hr
          omega

theorem nearest_none {l : List (Nat × Nat)} : nearest l = none ↔ l = [] := by
  cases l with
  | nil => exact ⟨fun _ => rfl, fun _ => rfl⟩
  | cons x l =>
    unfold nearest
    constructor
    · intro h
      split at h <;> cases h
    · intro h
      cases h

theorem CalEntry.bounds_iff {e : CalEntry} {c : Chan} : e.bounds c = true ↔
    e.phase = some .waiting ∧ e.role ≠ .follower ∧ inMask e.mask c = true ∧ e.out.get c = .pending := by
  simp only [CalEntry.bounds, Bool.and_eq_true, decide_eq_true_eq, and_assoc]

/-- A is unbounded exactly when no entry bounds the channel. -/
theorem State.available_none {s : State} {c : Chan} :
    s.available c = none ↔ ∀ e ∈ s.calendar, ¬ e.bounds c = true := by
  unfold State.available
  rw [Option.map_eq_none_iff, nearest_none, List.map_eq_nil_iff, List.filter_eq_nil_iff]

/-- A where it is bounded: by the nearest entry that bounds the channel, and of equally near ones by one with the
largest guard. -/
theorem State.available_some {s : State} {c : Chan} {a : Int} (h : s.available c = some a) :
    ∃ e ∈ s.calendar, e.bounds c = true
      ∧ a = (forward s.clock.value e.start : Int) - (s.store.working.guardMs e.series : Int)
      ∧ ∀ x ∈ s.calendar, x.bounds c = true → forward s.clock.value e.start ≤ forward s.clock.value x.start
        ∧ (forward s.clock.value x.start = forward s.clock.value e.start →
            s.store.working.guardMs x.series ≤ s.store.working.guardMs e.series) := by
  obtain ⟨p, found, rfl⟩ := Option.map_eq_some_iff.1 h
  obtain ⟨mem, least⟩ := nearest_some found
  obtain ⟨e, he, rfl⟩ := List.mem_map.1 mem
  obtain ⟨inCalendar, bounds⟩ := List.mem_filter.1 he
  exact ⟨e, inCalendar, bounds, rfl, fun x hx bx => least _ (List.mem_map_of_mem (List.mem_filter.2 ⟨hx, bx⟩))⟩

/-- Settles O17: A is the nearest of the entries that bound the channel, and the needs are the formulas themselves. -/
theorem availableTimeAndNeeds : Obligations.AvailableTimeAndNeeds := by
  refine ⟨fun c s => ⟨?_, fun a h => ?_⟩, fun img c up resumed final item len => rfl,
    fun k img len final => ⟨rfl, rfl, rfl⟩, fun need => ⟨rfl, fun a => decide_eq_true_iff⟩⟩
  · rw [State.available_none]
    exact ⟨fun h e ⟨mem, binds⟩ => h e mem (CalEntry.bounds_iff.2 binds),
      fun h e mem binds => h e ⟨mem, CalEntry.bounds_iff.1 binds⟩⟩
  · obtain ⟨e, mem, bounds, value, least⟩ := State.available_some h
    exact ⟨e, ⟨mem, CalEntry.bounds_iff.1 bounds⟩, value,
      fun x ⟨hx, binds⟩ => least x hx (CalEntry.bounds_iff.2 binds)⟩

/-! ## The tick (R1, R12, R13) -/

theorem tickTimer_eq (t : Option Nat) : tickTimer t = t.map (fun n => n - 1) := by cases t <;> rfl

theorem Commit.tick_eq (k : Commit) :
    k.tick = { k with elapsed := if k.elapsed < 250 then k.elapsed + 1 else 250 } := by
  have e : min (k.elapsed + 1) commitLimit = if k.elapsed < 250 then k.elapsed + 1 else 250 := by
    unfold commitLimit
    split <;> omega
  unfold Commit.tick
  rw [e]

theorem CalEntry.tick_eq (now : Nat) (e : CalEntry) : e.tick now =
    { e with
      r := if e.phase = some .due ∧ 0 < e.r then e.r - 1 else e.r
      passing := e.passing
        || decide (e.phase = some .due ∧ e.limitPassed = false ∧ e.withdrawn = false ∧ e.r ≤ 0)
      e := if e.phase = some .due then e.e + 1 else e.e
      arrived := e.arrived || decide (e.phase = some .waiting ∧ e.role ≠ .follower ∧ e.withdrawn = false
        ∧ e.start = now) } := by
  have passing : (e.limitRuns && decide (e.r ≤ 0))
      = decide (e.phase = some .due ∧ e.limitPassed = false ∧ e.withdrawn = false ∧ e.r ≤ 0) := by
    rw [Bool.eq_iff_iff]
    simp only [CalEntry.limitRuns, Bool.and_eq_true, decide_eq_true_eq, Bool.not_eq_true', and_assoc]
  have arrived : (e.awaits && decide (e.start = now))
      = decide (e.phase = some .waiting ∧ e.role ≠ .follower ∧ e.withdrawn = false ∧ e.start = now) := by
    rw [Bool.eq_iff_iff]
    simp only [CalEntry.awaits, Bool.and_eq_true, decide_eq_true_eq, Bool.not_eq_true', and_assoc]
  unfold CalEntry.tick
  rw [passing, arrived]

/-- Settles O11, each record at a tick written as the statement words it. -/
theorem tickMovesClockAndTimers : Obligations.TickMovesClockAndTimers := by
  intro s power
  refine ⟨tick s, by rw [← powered_on (f := tick) power]; rfl, fun h => ?_, fun h => ?_, rfl, ?_, rfl, rfl, ?_, ?_, rfl,
    fun c => ?_⟩
  · show (if s.clock.value + 1 = dayMs then 0 else s.clock.value + 1) = _
    rw [if_neg (by unfold dayMs; omega)]
  · show (if s.clock.value + 1 = dayMs then 0 else s.clock.value + 1) = _
    rw [if_pos (by unfold dayMs; omega)]
  · rw [← tickTimer_eq]
    rfl
  · rw [← funext Commit.tick_eq]
    rfl
  · rw [← funext (CalEntry.tick_eq (tick s).clock.value)]
    rfl
  · rw [tick_chan]
    simp only [← tickTimer_eq]
    exact ⟨rfl, rfl, rfl, rfl, rfl, rfl, rfl, rfl, rfl, rfl⟩

end Sys2Proof.Machine

/-! # Refused dockets, and power -/

namespace Sys2Proof.Machine

variable {s u : State} {bus : Bus} {slot : Nat} {reason : Reason}

/-! ## Refusals, by their owners (R172) -/

/-- A docket that its owner refuses is answered REFUSED, and the event changes nothing else. -/
theorem refused_docket {kind : Option Kind} {owner : State → State} (quiet : bus.prompt = [])
    (hands : s.Hands bus slot kind u) (calm : u.Calm) (refused : owner u = refuse slot reason u) :
    (Host.Outcome.next (powered (intake bus slot kind owner) s) : Host.Outcome State Fault Refusal)
      = .next (u.answeredAtIntake slot .refused (some reason) .none) := by
  rw [intake_handed owner hands, refused]
  exact congrArg _ (settleEvent_answered calm quiet slot .refused (some reason) .none)

theorem telexIntake_refuses (h : telexRefusal u (u.telexDocket slot) = some reason) :
    telexIntake bus slot u = refuse slot reason u := by
  unfold telexIntake
  dsimp only
  rw [h]

theorem bulletinIntake_refuses (h : bulletinRefusal u (u.bulletinDocket slot) = some reason) :
    bulletinIntake bus slot u = refuse slot reason u := by
  unfold bulletinIntake
  dsimp only
  rw [h]

theorem priorityIntake_refuses {distress : Bool} (h : maskChans (priorityMask u slot) = []) :
    priorityIntake bus slot distress u = refuse slot .badChannel u := if_pos h

theorem withdrawIntake_refuses (telex : u.telexAt (u.slotField slot 32 1) = none)
    (entry : u.entryAt (u.slotField slot 32 1) = none) (prio : u.prioAt (u.slotField slot 32 1) = none) :
    withdrawIntake slot u = refuse slot .notHeld u := by
  unfold withdrawIntake
  dsimp only
  rw [telex, entry, prio]

theorem onChannel_refuses {f : Chan → State → State} (h : Chan.ofNumber (u.slotField slot 32 1) = none) :
    onChannel slot f u = refuse slot .badChannel u := by
  unfold onChannel State.docketChannel
  rw [h]

theorem onChannel_named {f : Chan → State → State} {c : Chan} (h : Chan.ofNumber (u.slotField slot 32 1) = some c) :
    onChannel slot f u = f c u := by
  unfold onChannel State.docketChannel
  rw [h]

/-- Why a HOLD or a RETUNE is refused by the state of its channel (R33, R37): the channel is OFF or going OFF, or
else it is FAULTED or LOCKED_OUT. -/
def State.channelRefusal (u : State) (c : Chan) (reason : Reason) : Prop :=
  ((u.chan c).state = .off ∨ (u.chan c).offWaits = true) ∧ reason = .channelOff
    ∨ (u.chan c).offWaits = false ∧ ((u.chan c).state = .faulted ∨ (u.chan c).state = .lockedOut)
      ∧ reason = .channelFaulted

/-- The first two rows of R33 and R37. -/
theorem State.channelRefusal.refuses {c : Chan} (h : u.channelRefusal c reason) (other : State) :
    (if (u.chan c).state = .off ∨ (u.chan c).offWaits = true then refuse slot .channelOff u
      else if (u.chan c).state = .faulted ∨ (u.chan c).state = .lockedOut then refuse slot .channelFaulted u
      else other) = refuse slot reason u := by
  rcases h with ⟨off, rfl⟩ | ⟨stays, fault, rfl⟩
  · rw [if_pos off]
  · have on : ¬ ((u.chan c).state = .off ∨ (u.chan c).offWaits = true) := by
      rw [stays]
      rcases fault with e | e <;> rw [e] <;> simp
    rw [if_neg on, if_pos fault]

theorem holdChannel_refuses {c : Chan} (h : u.channelRefusal c reason) :
    holdChannel bus slot c u = refuse slot reason u := h.refuses _

theorem retuneIntake_refuses_preset {c : Chan} (h : 31 < u.slotField slot 33 1) :
    retuneIntake bus slot c u = refuse slot .badChannel u := if_pos h

theorem retuneIntake_refuses_channel {c : Chan} (preset : u.slotField slot 33 1 ≤ 31)
    (h : u.channelRefusal c reason) : retuneIntake bus slot c u = refuse slot reason u :=
  (if_neg (Nat.not_lt_of_le preset)).trans (h.refuses _)

theorem clearfaultChannel_refuses {c : Chan} (fault : (u.chan c).state = .faulted ∨ (u.chan c).state = .lockedOut)
    (active : (u.chan c).line.alarm.level = some true) : clearfaultChannel slot c u = refuse slot .lineActive u :=
  (if_pos fault).trans (if_pos active)

theorem setclockIntake_refuses (h : dayMs ≤ u.slotField slot 32 4) :
    setclockIntake slot u = refuse slot .badTime u := if_pos h

theorem setupIntake_refuses_inSetup (h : u.store.setup = true) : setupIntake slot u = refuse slot .inSetup u := if_pos h

theorem setupIntake_refuses_busy (h : u.store.setup = false) {c : Chan} (busy : (u.chan c).state.busy = true) :
    setupIntake slot u = refuse slot .channelsBusy u := by
  have some : (Chan.all.any (fun c => (u.chan c).state.busy)) = true := List.any_eq_true.2 ⟨c, Chan.mem_all c, busy⟩
  exact (if_neg (fun x => Bool.noConfusion (h.symm.trans x))).trans (if_pos some)

theorem setupExitIntake_refuses (h : u.store.setup = false) :
    setupExitIntake slot u = refuse slot .notInSetup u := by
  have out : u.inSetup = false := h
  unfold setupExitIntake
  rw [out]

theorem settingsWriteIntake_refuses_setup (h : u.store.setup = false) :
    settingsWriteIntake bus slot u = refuse slot .notInSetup u := by
  have out : (!u.inSetup) = true := congrArg not h
  exact if_pos out

theorem imagePageOk_false {n : Nat} (h : n = 0 ∨ 4094 < n) : (!imagePageOk n) = true := by
  unfold imagePageOk
  rw [Bool.not_eq_true', decide_eq_false_iff_not]
  omega

theorem settingsWriteIntake_refuses_page (h : u.store.setup = true)
    (page : u.slotField slot 32 2 = 0 ∨ 4094 < u.slotField slot 32 2) :
    settingsWriteIntake bus slot u = refuse slot .badText u := by
  have inside : ¬ (!u.inSetup) = true := fun x => Bool.noConfusion ((congrArg not h).symm.trans x)
  exact (if_neg inside).trans (if_pos (imagePageOk_false page))

theorem settingsReadIntake_refuses (page : u.slotField slot 32 2 = 0 ∨ 4094 < u.slotField slot 32 2) :
    settingsReadIntake bus slot u = refuse slot .badText u := if_pos (imagePageOk_false page)

theorem commitIntake_refuses_fixed (free : u.store.commit = none) (h : u.store.protection = .fixed) :
    commitIntake bus slot u = refuse slot .fixed u := by
  have idle : ¬ u.store.commit.isSome = true := by rw [free]; exact Bool.false_ne_true
  exact (if_neg idle).trans (if_pos h)

theorem commitIntake_refuses_key (free : u.store.commit = none) (h : u.store.protection = .keyed)
    (key : u.slotBytes slot 32 8 ≠ u.store.key) : commitIntake bus slot u = refuse slot .keyWrong u := by
  have idle : ¬ u.store.commit.isSome = true := by rw [free]; exact Bool.false_ne_true
  have unfixed : ¬ u.store.protection = .fixed := by rw [h]; exact Protection.noConfusion
  exact (if_neg idle).trans ((if_neg unfixed).trans (if_pos ⟨h, key⟩))

/-- Settles O20: each cause is a refusal of the owner, and a refused docket's event changes nothing else. -/
theorem refusalsAnswerAndChangeNothing : Obligations.RefusalsAnswerAndChangeNothing := by
  intro kind reason slot bus s u quiet hands calm cause
  rcases cause with ⟨rfl, rfl⟩ | ⟨rfl, h⟩ | ⟨rfl, h⟩ | ⟨rfl | rfl, h, rfl⟩ | ⟨rfl, telex, entry, prio, rfl⟩
    | ⟨rfl | rfl | rfl | rfl | rfl, h, rfl⟩ | ⟨rfl, preset, rfl⟩ | ⟨c, named, h⟩ | ⟨rfl, late, rfl⟩ | ⟨rfl, setup, rfl⟩
    | ⟨rfl, setup, ⟨c, busy⟩, rfl⟩ | ⟨rfl | rfl, setup, rfl⟩ | ⟨rfl | ⟨rfl, setup⟩, page, rfl⟩
    | ⟨rfl, free, fixed, rfl⟩ | ⟨rfl, free, keyed, key, rfl⟩
  · exact refused_docket quiet hands calm rfl
  · exact refused_docket quiet hands calm (telexIntake_refuses h)
  · exact refused_docket quiet hands calm (bulletinIntake_refuses h)
  · exact refused_docket quiet hands calm (priorityIntake_refuses h)
  · exact refused_docket quiet hands calm (priorityIntake_refuses h)
  · exact refused_docket quiet hands calm (withdrawIntake_refuses telex entry prio)
  · exact refused_docket quiet hands calm (onChannel_refuses h)
  · exact refused_docket quiet hands calm (onChannel_refuses h)
  · exact refused_docket quiet hands calm (onChannel_refuses h)
  · exact refused_docket quiet hands calm (onChannel_refuses h)
  · exact refused_docket quiet hands calm (onChannel_refuses h)
  · refine refused_docket quiet hands calm ?_
    cases named : Chan.ofNumber (u.slotField slot 32 1) with
    | none => exact onChannel_refuses named
    | some c => exact (onChannel_named named).trans (retuneIntake_refuses_preset preset)
  · rcases h with ⟨rfl | ⟨rfl, preset⟩, h⟩ | ⟨rfl, fault, active, rfl⟩
    · exact refused_docket quiet hands calm ((onChannel_named named).trans (holdChannel_refuses h))
    · exact refused_docket quiet hands calm ((onChannel_named named).trans (retuneIntake_refuses_channel preset h))
    · exact refused_docket quiet hands calm ((onChannel_named named).trans (clearfaultChannel_refuses fault active))
  · exact refused_docket quiet hands calm (setclockIntake_refuses late)
  · exact refused_docket quiet hands calm (setupIntake_refuses_inSetup setup)
  · exact refused_docket quiet hands calm (setupIntake_refuses_busy setup busy)
  · exact refused_docket quiet hands calm (setupExitIntake_refuses setup)
  · exact refused_docket quiet hands calm (settingsWriteIntake_refuses_setup setup)
  · exact refused_docket quiet hands calm (settingsReadIntake_refuses page)
  · exact refused_docket quiet hands calm (settingsWriteIntake_refuses_page setup page)
  · exact refused_docket quiet hands calm (commitIntake_refuses_fixed free fixed)
  · exact refused_docket quiet hands calm (commitIntake_refuses_key free keyed key)

end Sys2Proof.Machine

/-! ## Power (R3, R42, R44, R177 to R179, R184) -/

namespace Sys2Proof.Machine

/-- The marking walks abandoned at a reset leave the Settings Store alone (R149). -/
theorem abandonWalks_store (s : State) : (abandonWalks s).store = s.store := by
  have each : ∀ (c : Chan) (s : State), (abandonWalk c s).store = s.store := by
    intro c s
    unfold abandonWalk
    split
    · rfl
    · exact (Kept.refl s.useChoice).markingWalk.store
  have all : ∀ (cs : List Chan) (s : State), (eachChan abandonWalk cs s).store = s.store := by
    intro cs
    induction cs with
    | nil => exact fun _ => rfl
    | cons c cs ih => exact fun s => (ih (abandonWalk c s)).trans (each c s)
  exact all Chan.all s

theorem powerDown_stored (s : State) : (powerDown s).store.stored = s.store.unpowered := by
  show (abandonWalks s).store.unpowered = _
  rw [abandonWalks_store]

/-- A sum of 16 bits moved by 1 to 65,535 is another. -/
theorem add_offset_ne (x : BitVec 16) (k : Fin 65535) : x + 1 + BitVec.ofNat 16 k.val ≠ x := by
  intro h
  have sum := congrArg BitVec.toNat h
  have one : (1 : BitVec 16).toNat = 1 := rfl
  simp only [BitVec.toNat_add, BitVec.toNat_ofNat, one] at sum
  omega

/-- A stored image spoilt has a bad checksum (R184). -/
theorem StoredImage.spoil_bad (x : StoredImage) : x.spoil.checksum ≠ x.spoil.image.checksum := by
  obtain ⟨image, checksum⟩ := x
  exact add_offset_ne image.checksum _

theorem Store.unpowered_idle {x : Store} (h : x.commit = none) : x.unpowered = x.stored := by
  unfold Store.unpowered
  rw [h]
  rfl

theorem Store.unpowered_bad {x : Store} (h : x.commit.isSome = true) :
    x.unpowered.checksum ≠ x.unpowered.image.checksum := by
  unfold Store.unpowered
  rw [if_pos h]
  exact x.stored.spoil_bad

theorem Store.load_good {x : Store} (h : x.stored.checksum = x.stored.image.checksum) :
    x.load.working = x.stored.image ∧ x.loadFlags = 0 ∧ x.load.protection = x.stored.image.protection
      ∧ x.load.key = x.stored.image.key := by
  have good : x.stored.good = true := decide_eq_true h
  simp [Store.load, Store.loadFlags, good]

theorem Store.load_bad {x : Store} (h : x.stored.checksum ≠ x.stored.image.checksum) :
    x.load.working = Image.factory ∧ x.loadFlags = Flag.nvErr.word ∧ x.load.protection = .openLevel := by
  have bad : x.stored.good = false := decide_eq_false h
  simp [Store.load, Store.loadFlags, bad]

theorem Channel.powerOn_off {img : Image} {c : Chan} (h : (img.chan.get c).enabled = false) :
    (Channel.powerOn img c).state = .off := by
  simp [Channel.powerOn, h, Channel.blank]

theorem Channel.powerOn_on {img : Image} {c : Chan} (h : (img.chan.get c).enabled = true) :
    (Channel.powerOn img c).state = .retuning ∧ (Channel.powerOn img c).strobe = some 10
      ∧ (Channel.powerOn img c).retuneLimit = some (img.retuneSeconds * 1000) := by
  simp [Channel.powerOn, h]

theorem Channel.powerOn_blank (img : Image) (c : Chan) :
    (Channel.powerOn img c).onAir = none ∧ (Channel.powerOn img c).preset = (img.chan.get c).startPreset := by
  unfold Channel.powerOn
  dsimp only
  split <;> exact ⟨rfl, rfl⟩

/-- Settles O8: power-on loads the image that power-down left stored, and builds every channel from it. -/
theorem powerOnAndLoss : Obligations.PowerOnAndLoss := by
  refine ⟨fun s => ⟨powerUp s, rfl, rfl, rfl, rfl, rfl, rfl, rfl, rfl, rfl, rfl, rfl, rfl, rfl, rfl, rfl, rfl, rfl, rfl,
    fun c => ?_, fun _ idle => ?_⟩, fun s power => ⟨powerDown s, ?_, rfl, rfl, rfl, rfl, rfl, rfl, fun idle => ?_,
    fun busy => ?_⟩⟩
  · obtain ⟨onAir, preset⟩ := Channel.powerOn_blank (powerUp s).store.working c
    rw [powerUp_chan, Channel.powerOn_line]
    exact ⟨rfl, rfl, onAir, preset, Channel.powerOn_off, Channel.powerOn_on⟩
  · have stored : (powerDown s).store.stored = s.store.stored :=
      (powerDown_stored s).trans (Store.unpowered_idle idle)
    refine ⟨stored, fun good => ?_, fun bad => ?_⟩
    · rw [← stored] at good ⊢
      exact Store.load_good good
    · rw [← stored] at bad
      exact Store.load_bad bad
  · exact congrArg Host.Outcome.next (powered_on power)
  · exact (powerDown_stored s).trans (Store.unpowered_idle idle)
  · rw [powerDown_stored]
    exact Store.unpowered_bad busy

end Sys2Proof.Machine

/-! # SETCLOCK and the jump of the clock (R6 to R9, R14, R113) -/

namespace Sys2Proof.Machine

variable {s t u : State} {bus : Bus} {c : Chan} {e : CalEntry}

/-! ## Where no channel takes a pick -/

/-- From `s` to `t` only the channels' records have changed, and of no channel its state, the pick asked for or the code
due: marks have been cleared, walks asked for, and waits ended. -/
structure OnlyMarks (s t : State) : Prop where
  rest : t = { s with chans := t.chans }
  state : ∀ c, (t.chan c).state = (s.chan c).state
  pick : ∀ c, (t.chan c).pick = (s.chan c).pick
  codeDue : ∀ c, (t.chan c).codeDue = (s.chan c).codeDue

theorem OnlyMarks.refl (s : State) : OnlyMarks s s := ⟨rfl, fun _ => rfl, fun _ => rfl, fun _ => rfl⟩

theorem OnlyMarks.trans (h : OnlyMarks s t) (k : OnlyMarks t u) : OnlyMarks s u :=
  ⟨by rw [k.rest, h.rest], fun c => (k.state c).trans (h.state c), fun c => (k.pick c).trans (h.pick c),
    fun c => (k.codeDue c).trans (h.codeDue c)⟩

theorem OnlyMarks.setChan {f : Channel → Channel}
    (hf : ∀ ch, (f ch).state = ch.state ∧ (f ch).pick = ch.pick ∧ (f ch).codeDue = ch.codeDue) (s : State) (c : Chan) :
    OnlyMarks s (s.setChan c f) := by
  have each : ∀ d, ((s.setChan c f).chan d).state = (s.chan d).state ∧ ((s.setChan c f).chan d).pick = (s.chan d).pick
      ∧ ((s.setChan c f).chan d).codeDue = (s.chan d).codeDue := by
    intro d
    rw [State.chan_setChan]
    split
    · rename_i same
      subst same
      exact hf _
    · exact ⟨rfl, rfl, rfl⟩
  exact ⟨rfl, fun d => (each d).1, fun d => (each d).2.1, fun d => (each d).2.2⟩

theorem OnlyMarks.noPick (h : OnlyMarks s t) (k : ∀ c, s.takesNoPick c) : ∀ c, t.takesNoPick c := fun c => by
  unfold State.takesNoPick
  rw [h.state]
  exact k c

theorem OnlyMarks.calm (h : OnlyMarks s t) (k : s.Calm) : t.Calm := fun c => by
  rw [h.pick, h.codeDue]
  exact k c

/-- Only marks change at each channel of a list, where that is so on every state whose channels take no pick. -/
theorem OnlyMarks.eachChan {f : Chan → State → State} (hf : ∀ c s, (∀ d, s.takesNoPick d) → OnlyMarks s (f c s))
    (cs : List Chan) : ∀ s, (∀ d, s.takesNoPick d) → OnlyMarks s (eachChan f cs s) := by
  induction cs with
  | nil => exact fun s _ => OnlyMarks.refl s
  | cons c cs ih => exact fun s k => (hf c s k).trans (ih _ ((hf c s k).noPick k))

theorem eachChan_trigger_none (h : ∀ c, s.takesNoPick c) (cs : List Chan) : eachChan trigger cs s = s :=
  eachChan_same (fun c _ => trigger_none (h c))

theorem dropMark_onlyMarks (slot : Nat) (c : Chan) (s : State) : OnlyMarks s (dropMark slot c s) :=
  OnlyMarks.setChan (fun ch => by split <;> exact ⟨rfl, rfl, rfl⟩) s c

theorem requestWalk_onlyMarks (c : Chan) (slot page limit : Nat) (s : State) :
    OnlyMarks s (requestWalk c slot page limit s) := by
  refine OnlyMarks.setChan ?_ s c
  exact fun _ => ⟨rfl, rfl, rfl⟩

theorem compareWait_onlyMarks (c : Chan) (s : State) : OnlyMarks s (compareWait c s) := by
  unfold compareWait
  split
  · refine OnlyMarks.setChan ?_ s c
    exact fun _ => ⟨rfl, rfl, rfl⟩
  · exact OnlyMarks.refl s

theorem jumpReaches_onlyMarks (forward : Bool) (c : Chan) (s : State) (h : ∀ d, s.takesNoPick d) :
    OnlyMarks s (jumpReaches forward c s) := by
  unfold jumpReaches
  rw [trigger_none (h c)]
  split
  · exact compareWait_onlyMarks c s
  · exact OnlyMarks.refl s

/-! ## A calendar of one entry -/

theorem CalEntry.pair_single (h : e.role = .single) : e.pair = [e.slot] := by
  unfold CalEntry.pair
  rw [h]

theorem entryAt_one (h : s.calendar = [e]) : s.entryAt e.slot = some e := by
  unfold State.entryAt
  rw [h]
  simp

theorem setEntry_one (h : s.calendar = [e]) (f : CalEntry → CalEntry) :
    s.setEntry e.slot f = { s with calendar := [f e] } := by
  unfold State.setEntry
  rw [h]
  simp

theorem orderedAt_one (h : s.calendar = [e]) (single : e.role = .single) (now : Nat) : s.orderedAt now = [e] := by
  unfold State.orderedAt
  rw [h]
  simp [single, insertEntry]

theorem orderedAt_nil (h : s.calendar = []) (now : Nat) : s.orderedAt now = [] := by
  unfold State.orderedAt
  rw [h]
  rfl

/-! ## The catch-up rule (R113) -/

/-- The outcomes of a repetition missed: MISSED on each channel of the mask, NOT_USED on the others. -/
def missedOn (mask : BitVec 8) : Six ChanOutcome := Six.ofFn (fun c => if inMask mask c then .missed else .notUsed)

theorem missedOn_get (mask : BitVec 8) (c : Chan) :
    (missedOn mask).get c = if inMask mask c then .missed else .notUsed := Six.get_ofFn ..

theorem CalEntry.miss_eq (e : CalEntry) : e.miss =
    { e with
      out := missedOn e.mask, last := missedOn e.mask, unsentTally := e.unsentTally + (maskChans e.mask).length
      done := e.done + 1, left := e.left - 1, changed := true } := by
  have onMask : ∀ c ∈ maskChans e.mask, (missedOn e.mask).get c = .missed := fun c h => by
    rw [missedOn_get, if_pos (mem_maskChans.1 h)]
  have shown : CalEntry.shown { e with out := missedOn e.mask } = missedOn e.mask := Six.ext_get (fun c => by
    unfold CalEntry.shown
    rw [Six.get_ofFn]
    dsimp only
    rw [missedOn_get]
    split <;> rfl)
  have sent : CalEntry.countSent { e with out := missedOn e.mask } = e.sentCount := Six.ext_get (fun c => by
    unfold CalEntry.countSent
    rw [Six.get_ofFn]
    dsimp only
    rw [missedOn_get]
    split <;> simp_all)
  have sentTally : CalEntry.tally { e with out := missedOn e.mask } (fun o => decide (o = .sent)) = 0 := by
    refine List.length_eq_zero_iff.2 (List.filter_eq_nil_iff.2 (fun c h => ?_))
    rw [onMask c h]
    decide
  have unsentTally : CalEntry.tally { e with out := missedOn e.mask }
      (fun o => decide (o = .failed) || decide (o = .missed)) = (maskChans e.mask).length := by
    refine congrArg List.length (List.filter_eq_self.2 (fun c h => ?_))
    rw [onMask c h]
    decide
  show CalEntry.record { e with out := missedOn e.mask } = _
  unfold CalEntry.record
  rw [shown, sent, sentTally, unsentTally]
  rfl

theorem CalEntry.repeat_miss_eq (n : Nat) : ∀ e : CalEntry, repeatFn CalEntry.miss (n + 1) e =
    { e with
      out := missedOn e.mask, last := missedOn e.mask
      unsentTally := e.unsentTally + (n + 1) * (maskChans e.mask).length
      done := e.done + (n + 1), left := e.left - (n + 1), changed := true } := by
  induction n with
  | zero =>
    intro e
    rw [Nat.zero_add, Nat.one_mul]
    exact e.miss_eq
  | succ n ih =>
    intro e
    have once : repeatFn CalEntry.miss (n + 1 + 1) e = repeatFn CalEntry.miss (n + 1) e.miss := rfl
    have tally : e.unsentTally + (maskChans e.mask).length + (n + 1) * (maskChans e.mask).length
        = e.unsentTally + (n + 1 + 1) * (maskChans e.mask).length := by
      rw [Nat.succ_mul (n + 1)]
      omega
    have done : e.done + 1 + (n + 1) = e.done + (n + 1 + 1) := by omega
    have left : e.left - 1 - (n + 1) = e.left - (n + 1 + 1) := by omega
    rw [once, ih, e.miss_eq]
    simp only [tally, done, left]

/-- `x` is the entry `e` carried over `n` missed repetitions, at the start of the one after them (R113). -/
structure CalEntry.CarriedOver (n : Nat) (e x : CalEntry) : Prop where
  done : x.done = e.done + n
  left : x.left = e.left - n
  start : x.start = (e.start + n * e.interval) % dayMs
  tolerance : x.tolerance = e.tolerance
  limit : x.limitPassed = false
  out : x.out = pendingOn e.mask
  sentCount : x.sentCount = e.sentCount
  sentTally : x.sentTally = e.sentTally
  unsentTally : x.unsentTally = e.unsentTally + n * (maskChans e.mask).length
  last : n ≠ 0 → x.last = missedOn e.mask

theorem CalEntry.overMissed_carriedOver (n : Nat) (e : CalEntry) : CarriedOver n e (e.overMissed n) := by
  unfold CalEntry.overMissed
  cases n with
  | zero => constructor <;> simp [repeatFn, CalEntry.fresh]
  | succ n =>
    rw [CalEntry.repeat_miss_eq]
    exact ⟨rfl, rfl, rfl, rfl, rfl, rfl, rfl, rfl, rfl, fun _ => rfl⟩

/-- The catch-up rule misses `k` repetitions: those whose latest start lies behind, up to the first whose does not. -/
theorem missCount_eq {tolerance : Nat} {interval : Int} : ∀ {left k : Nat} {late : Int},
    (∀ j < k, (tolerance : Int) < late - (j : Int) * interval) →
    (k < left → late - (k : Int) * interval ≤ tolerance) → k ≤ left → missCount tolerance interval left late = k := by
  intro left
  induction left with
  | zero =>
    intro k late _ _ le
    rw [Nat.le_zero.1 le]
    rfl
  | succ left ih =>
    intro k late behind ahead le
    unfold missCount
    cases k with
    | zero =>
      have := ahead (Nat.succ_pos _)
      rw [if_neg (by push_cast at this; omega)]
    | succ k =>
      have first := behind 0 (Nat.succ_pos k)
      have shift : ∀ j : Nat, late - interval - (j : Int) * interval = late - ((j + 1 : Nat) : Int) * interval := by
        intro j
        rw [Int.natCast_add, Int.natCast_one, Int.add_mul, Int.one_mul]
        omega
      rw [if_pos (by push_cast at first; omega)]
      congr 1
      refine ih (fun j hj => ?_) (fun hk => ?_) (Nat.le_of_succ_le_succ le)
      · rw [shift]
        exact behind (j + 1) (Nat.succ_lt_succ hj)
      · rw [shift]
        exact ahead (Nat.succ_lt_succ hk)

end Sys2Proof.Machine

/-! ## The jump over a calendar of one entry (R8, R9) -/

namespace Sys2Proof.Machine

variable {s t u : State} {bus : Bus} {e : CalEntry} {old new slot : Nat}

/-- An entry that becomes DUE with its whole tolerance (R9). -/
def CalEntry.dueNow (e : CalEntry) : CalEntry :=
  { e with phase := some .due, r := e.tolerance, e := 0, limitPassed := false, arrived := false, passing := false }

/-- The MISSED flag raised where a condition holds, and the calendar of one entry. -/
def State.leftWith (s : State) (missed : Bool) (e : CalEntry) : State :=
  { (s.raiseIf missed .missed) with calendar := [e] }

theorem State.leftWith_calendar (s : State) (l : List CalEntry) (missed : Bool) (e : CalEntry) :
    ({ s with calendar := l } : State).leftWith missed e = s.leftWith missed e := by
  unfold State.leftWith State.raiseIf
  split <;> rfl

theorem State.leftWith_noPick (h : ∀ c, s.takesNoPick c) (b : Bool) (x : CalEntry) (c : Chan) :
    (s.leftWith b x).takesNoPick c := by
  unfold State.leftWith State.raiseIf
  split <;> exact h c

theorem State.leftWith_calm (h : s.Calm) (b : Bool) (x : CalEntry) : (s.leftWith b x).Calm := by
  unfold State.leftWith State.raiseIf
  split <;> exact h

/-- The answer of the one entry of the calendar, which has left it (R117). -/
def State.entryGone (s : State) (slot : Nat) (result : Result) (progress : Progress) : State :=
  { (answerTaken slot result progress true s) with calendar := [] }

/-- Placing the one entry of the calendar, where repetitions are left to it: those missed are counted, and it waits or
is DUE. -/
theorem place_one (h : s.calendar = [e]) (single : e.role = .single) (quiet : ∀ c, s.takesNoPick c) {n : Nat}
    {elapsed : Int} (count : missCount e.tolerance e.interval e.left elapsed = n) (left : n ≠ e.left) :
    place e.slot elapsed s
      = s.leftWith (n != 0) ((e.overMissed n).placeAt (elapsed - (n : Int) * (e.interval : Int))) := by
  have missed : ((e.pair.foldl (fun s k => s.setEntry k (CalEntry.overMissed n)) s).raiseIf (n != 0) .missed)
      = s.leftWith (n != 0) (e.overMissed n) := by
    rw [CalEntry.pair_single single]
    show (s.setEntry e.slot (CalEntry.overMissed n)).raiseIf (n != 0) .missed = _
    rw [setEntry_one h]
    unfold State.leftWith State.raiseIf
    split <;> rfl
  have sameSlot : (e.overMissed n).slot = e.slot := CalEntry.repeat_miss_slot n e
  have placed : (s.leftWith (n != 0) (e.overMissed n)).setEntry e.slot
        (fun x => x.placeAt (elapsed - (n : Int) * (e.interval : Int)))
      = s.leftWith (n != 0) ((e.overMissed n).placeAt (elapsed - (n : Int) * (e.interval : Int))) := by
    rw [← sameSlot]
    exact setEntry_one (e := e.overMissed n) rfl _
  unfold place
  rw [entryAt_one h]
  dsimp only
  rw [count, missed, if_neg left, placed]
  split
  · rfl
  · exact eachChan_trigger_none (State.leftWith_noPick quiet _ _) _

/-- The end of the one entry of the calendar: its answer, and its leaving. -/
theorem endEntry_one (h : s.calendar = [e]) (quiet : ∀ c, s.takesNoPick c) (result : Result) :
    OnlyMarks (s.entryGone e.slot result (.bulletin e.done e.last e.sentCount)) (endEntry e.slot result s) := by
  have asked := requestWalk_onlyMarks (walkerOf e.mask) e.slot e.firstPage walkPages
    (s.entryGone e.slot result (.bulletin e.done e.last e.sentCount))
  have left : s.calendar.filter (fun x => x.slot != e.slot) = [] := by
    rw [h]
    simp
  have told := OnlyMarks.eachChan (f := fun c s => trigger c (dropMark e.slot c s)) (fun c s q => by
    rw [trigger_none ((dropMark_onlyMarks e.slot c s).noPick q c)]
    exact dropMark_onlyMarks e.slot c s) (maskChans e.mask) _ (asked.noPick quiet)
  unfold endEntry
  rw [entryAt_one h]
  dsimp only
  have gone : (requestWalk (walkerOf e.mask) e.slot e.firstPage walkPages
      (answerTaken e.slot result (.bulletin e.done e.last e.sentCount) true s)).calendar.filter
        (fun x => x.slot != e.slot) = [] := left
  rw [gone]
  exact asked.trans told

/-- Placing the one entry of the calendar, where every repetition left to it is missed: it ends by its tallies. -/
theorem place_one_ends (h : s.calendar = [e]) (single : e.role = .single) (quiet : ∀ c, s.takesNoPick c)
    {elapsed : Int} (count : missCount e.tolerance e.interval e.left elapsed = e.left) (left : e.left ≠ 0) :
    OnlyMarks ((s.raise .missed).entryGone e.slot (e.overMissed e.left).result
        (.bulletin (e.done + e.left) (missedOn e.mask) e.sentCount)) (place e.slot elapsed s) := by
  have carried := CalEntry.overMissed_carriedOver e.left e
  have missed : ((e.pair.foldl (fun s k => s.setEntry k (CalEntry.overMissed e.left)) s).raiseIf (e.left != 0) .missed)
      = { (s.raise .missed) with calendar := [e.overMissed e.left] } := by
    have raised : (e.left != 0) = true := by simpa using left
    rw [CalEntry.pair_single single, raised]
    show (s.setEntry e.slot (CalEntry.overMissed e.left)).raise .missed = _
    rw [setEntry_one h]
    rfl
  have sameSlot : (e.overMissed e.left).slot = e.slot := CalEntry.repeat_miss_slot e.left e
  have one : ({ (s.raise .missed) with calendar := [e.overMissed e.left] } : State).calendar
      = [e.overMissed e.left] := rfl
  have ended := endEntry_one (s := { (s.raise .missed) with calendar := [e.overMissed e.left] }) one quiet
    (e.overMissed e.left).result
  have found := entryAt_one one
  rw [sameSlot] at ended found
  rw [carried.done, carried.last left, carried.sentCount] at ended
  unfold place
  rw [entryAt_one h]
  dsimp only
  rw [count, missed, if_pos rfl, CalEntry.pair_single single]
  unfold endByTallies
  rw [List.foldl_cons, List.foldl_nil, found]
  exact ended

/-- A backward jump reaches the one entry of the calendar only where it waits for the new value. -/
theorem jumpCalendar_back (h : s.calendar = [e]) (single : e.role = .single) (back : 43200000 ≤ forward old new) :
    jumpCalendar old new s = if e.awaits && decide (e.start = new) then becomeDue e s else s := by
  have backward : jumpForward (forward old new) = false := decide_eq_false (Nat.not_lt_of_le back)
  unfold jumpCalendar
  dsimp only
  rw [backward]
  show backwardJump old new s = _
  unfold backwardJump
  rw [orderedAt_one h single]
  rfl

/-- A forward jump reaches the one entry of the calendar only where its start time was passed over. -/
theorem jumpCalendar_ahead (h : s.calendar = [e]) (single : e.role = .single) (ahead : forward old new < 43200000) :
    jumpCalendar old new s =
      if e.awaits && decide (1 ≤ forward old e.start) && decide (forward old e.start ≤ forward old new) then
        place e.slot (forward e.start new) { s with calendar := [e.fresh] } else s := by
  unfold jumpCalendar
  dsimp only
  rw [jumpForward_iff.2 ahead]
  show forwardJump old new (forward old new) s = _
  unfold forwardJump
  rw [orderedAt_one h single, List.foldl_cons, List.foldl_nil, setEntry_one h]

theorem becomeDue_one (h : s.calendar = [e]) (quiet : ∀ c, s.takesNoPick c) :
    becomeDue e s = { s with calendar := [e.dueNow] } := by
  unfold becomeDue
  rw [setEntry_one h]
  exact eachChan_trigger_none (s := { s with calendar := [e.dueNow] }) quiet _

/-! ## The entry that the statements speak of: single, WAITING and not withdrawn -/

/-- The one entry of the calendar is single, WAITING for its start time, not withdrawn, and has a repetition left; and
no channel takes a pick. -/
structure State.OneWaits (s : State) (e : CalEntry) : Prop where
  calendar : s.calendar = [e]
  quiet : ∀ c, s.takesNoPick c
  phase : e.phase = some .waiting
  single : e.role = .single
  stays : e.withdrawn = false
  left : 1 ≤ e.left
  start : e.start < dayMs

theorem State.OneWaits.awaits (h : s.OneWaits e) : e.awaits = true := by
  simp [CalEntry.awaits, h.phase, h.single, h.stays]

theorem State.OneWaits.back (h : s.OneWaits e) (back : 43200000 ≤ forward old new) (other : e.start ≠ new) :
    jumpCalendar old new s = s := by
  rw [jumpCalendar_back h.calendar h.single back, decide_eq_false other, Bool.and_false]
  rfl

theorem State.OneWaits.back_onto (h : s.OneWaits e) (back : 43200000 ≤ forward old new) (same : e.start = new) :
    jumpCalendar old new s = { s with calendar := [e.dueNow] } := by
  rw [jumpCalendar_back h.calendar h.single back, h.awaits, decide_eq_true same]
  exact becomeDue_one h.calendar h.quiet

theorem State.OneWaits.short (h : s.OneWaits e) (ahead : forward old new < 43200000)
    (missed : forward old e.start = 0 ∨ forward old new < forward old e.start) : jumpCalendar old new s = s := by
  rw [jumpCalendar_ahead h.calendar h.single ahead]
  refine if_neg (fun x => ?_)
  simp only [Bool.and_eq_true, decide_eq_true_eq] at x
  omega

/-- A forward jump that passes over the start time. -/
theorem State.OneWaits.over (h : s.OneWaits e) (ahead : forward old new < 43200000) (past : 1 ≤ forward old e.start)
    (reached : forward old e.start ≤ forward old new) :
    jumpCalendar old new s = place e.slot (forward e.start new) { s with calendar := [e.fresh] } := by
  rw [jumpCalendar_ahead h.calendar h.single ahead, h.awaits, decide_eq_true past, decide_eq_true reached]
  rfl

/-- The entry after a forward jump that makes it miss `k` repetitions, fewer than are left to it. -/
theorem State.OneWaits.over_left (h : s.OneWaits e) (ahead : forward old new < 43200000)
    (past : 1 ≤ forward old e.start) (reached : forward old e.start ≤ forward old new) {k : Nat} (some : k < e.left)
    (behind : ∀ j < k, (e.tolerance : Int) < (forward e.start new : Int) - (j : Int) * e.interval)
    (stops : (forward e.start new : Int) - (k : Int) * e.interval ≤ e.tolerance) :
    jumpCalendar old new s = s.leftWith (k != 0)
      ((e.fresh.overMissed k).placeAt ((forward e.start new : Int) - (k : Int) * (e.interval : Int))) := by
  rw [h.over ahead past reached]
  exact (place_one (s := { s with calendar := [e.fresh] }) (e := e.fresh) rfl h.single h.quiet
    (missCount_eq behind (fun _ => stops) (Nat.le_of_lt some)) (Nat.ne_of_lt some)).trans (s.leftWith_calendar _ _ _)

/-- The end of the entry at a forward jump that makes it miss all the repetitions left to it. -/
theorem State.OneWaits.over_all (h : s.OneWaits e) (ahead : forward old new < 43200000)
    (past : 1 ≤ forward old e.start) (reached : forward old e.start ≤ forward old new)
    (behind : ∀ j < e.left, (e.tolerance : Int) < (forward e.start new : Int) - (j : Int) * e.interval) :
    OnlyMarks ((s.raise .missed).entryGone e.slot (e.fresh.overMissed e.left).result
        (.bulletin (e.done + e.left) (missedOn e.mask) e.sentCount)) (jumpCalendar old new s) := by
  rw [h.over ahead past reached]
  exact place_one_ends (s := { s with calendar := [e.fresh] }) (e := e.fresh) rfl h.single h.quiet
    (missCount_eq behind (fun x => absurd x (Nat.lt_irrefl _)) (Nat.le_refl _)) (Nat.ne_of_gt h.left)

/-- `x` is what a forward jump to a time `late` past its start leaves of the entry `e`, with `k` repetitions missed: it
waits for the start time after them, or is DUE with what is left of its tolerance (R8, R113). -/
structure CalEntry.PlacedOver (k late : Nat) (e x : CalEntry) : Prop where
  done : x.done = e.done + k
  left : x.left = e.left - k
  start : x.start = (e.start + k * e.interval) % dayMs
  waits : late < k * e.interval → x.phase = some .waiting
  due : k * e.interval ≤ late → x.phase = some .due ∧ x.e = late - k * e.interval ∧ x.r = (e.tolerance : Int) - x.e
  out : x.out = pendingOn e.mask
  limit : x.limitPassed = false
  last : k ≠ 0 → x.last = missedOn e.mask

theorem CalEntry.placeAt_placedOver (k late : Nat) (e : CalEntry) :
    PlacedOver k late e ((e.fresh.overMissed k).placeAt ((late : Int) - (k : Int) * (e.interval : Int))) := by
  have carried := CalEntry.overMissed_carriedOver k e.fresh
  rw [← Int.natCast_mul]
  unfold CalEntry.placeAt
  split
  · exact ⟨carried.done, carried.left, carried.start, fun _ => rfl, fun x => by omega, carried.out,
      carried.limit, carried.last⟩
  · refine ⟨carried.done, carried.left, carried.start, fun x => by omega, fun x => ⟨rfl, ?_, ?_⟩,
      carried.out, carried.limit, carried.last⟩
    · show ((late : Int) - ((k * e.interval : Nat) : Int)).toNat = _
      omega
    · have tolerance : (e.fresh.overMissed k).tolerance = e.tolerance := carried.tolerance
      show ((e.fresh.overMissed k).tolerance : Int) - ((late : Int) - ((k * e.interval : Nat) : Int))
        = (e.tolerance : Int) - (((late : Int) - ((k * e.interval : Nat) : Int)).toNat : Int)
      rw [tolerance]
      omega

/-- A forward jump over the start time by no more than the tolerance makes the entry DUE with what is left of
it (R8). -/
theorem State.OneWaits.over_inTime (h : s.OneWaits e) (ahead : forward old new < 43200000)
    (past : 1 ≤ forward old e.start) (reached : forward old e.start ≤ forward old new)
    (inTime : forward e.start new ≤ e.tolerance) :
    ∃ x, (jumpCalendar old new s).calendar = [x] ∧ x.phase = some .due ∧ x.e = forward e.start new
      ∧ x.r = (e.tolerance : Int) - (forward e.start new : Int) ∧ x.left = e.left ∧ x.done = e.done
      ∧ x.start = e.start ∧ x.limitPassed = false := by
  have jump := h.over_left ahead past reached (k := 0) h.left (fun j hj => absurd hj (Nat.not_lt_zero j))
    (by rw [Int.natCast_zero, Int.zero_mul, Int.sub_zero]; exact Int.ofNat_le.2 inTime)
  have placed := CalEntry.placeAt_placedOver 0 (forward e.start new) e
  obtain ⟨phase, elapsed, r⟩ := placed.due (by rw [Nat.zero_mul]; exact Nat.zero_le _)
  rw [Nat.zero_mul, Nat.sub_zero] at elapsed
  rw [jump]
  refine ⟨_, rfl, phase, elapsed, by rw [r, elapsed], placed.left, placed.done, ?_, placed.limit⟩
  rw [placed.start, Nat.zero_mul, Nat.add_zero, Nat.mod_eq_of_lt h.start]

end Sys2Proof.Machine

/-! ## The SETCLOCK docket (R6) -/

namespace Sys2Proof.Machine

variable {s t u w : State} {bus : Bus} {e : CalEntry} {slot new : Nat}

/-- The clock SET to a value. -/
def State.clockAt (s : State) (new : Nat) : State := { s with clock := { value := new, isSet := true } }

theorem setClock_eq (new : Nat) (u : State) : setClock new u =
    eachChan (jumpReaches (jumpForward (forward u.clock.value new))) Chan.all
      (jumpCalendar u.clock.value new (u.clockAt new)) := rfl

theorem setclockIntake_inDay (time : u.slotField slot 32 4 = new) (inDay : new < dayMs) :
    setclockIntake slot u = answerDone slot (setClock new u) := by
  subst time
  exact if_neg (Nat.not_le_of_lt inDay)

/-- A SETCLOCK docket at its handover, with a time in the day: the clock is set, and the docket answered DONE. -/
theorem exec_setclock (hands : s.Hands bus slot (some .setclock) u) (time : u.slotField slot 32 4 = new)
    (inDay : new < dayMs) :
    exec (.setclock slot bus) s = .next (settleEvent bus (answerDone slot (setClock new u))) := by
  refine congrArg Host.Outcome.next ((intake_handed (setclockIntake slot) hands).trans ?_)
  rw [setclockIntake_inDay time inDay]

theorem State.Hands.power {kind : Option Kind} (h : s.Hands bus slot kind u) : u.power = true := by
  obtain ⟨_, rfl, _⟩ := h.leaves
  exact h.1

theorem setClock_stamp (new : Nat) (u : State) : (setClock new u).stamp = (new, false) := by
  have set := (Kept.setClock new u).clock
  generalize setClock new u = v at set
  unfold State.stamp
  rw [set]
  rfl

/-- What the channels and owners leave of a docket answered DONE once the clock has been set: the new time, the store,
the power, and the answer with its stamp. -/
theorem answerDone_takes_time {v : State} (power : u.power = true) (set : Kept (u.clockAt new) v)
    (stamp : v.stamp = (new, false)) (ends : Kept (answerDone slot v) t) :
    t.clock = { value := new, isSet := true } ∧ t.store = u.store ∧ t.power = true
      ∧ ∃ a ∈ t.rack.backlog, a.slot = slot ∧ a.result = .done ∧ a.time = new ∧ a.noclock = false :=
  ⟨ends.clock.trans set.clock, ends.store.trans set.store, (ends.power.trans set.power).trans power,
    v.intakeAnswer slot .done none .none, ends.backlog.subset (List.mem_append_right _ (List.mem_singleton.2 rfl)),
    rfl, rfl, congrArg Prod.fst stamp, congrArg Prod.snd stamp⟩

/-- With an empty calendar and no channel to take a pick, the clock is all that a SETCLOCK changes. -/
theorem setClock_empty (h : u.calendar = []) (quiet : ∀ c, u.takesNoPick c) (new : Nat) :
    setClock new u = u.clockAt new := by
  have jump : jumpCalendar u.clock.value new (u.clockAt new) = u.clockAt new := by
    have none : ∀ now, (u.clockAt new).orderedAt now = [] := orderedAt_nil h
    unfold jumpCalendar forwardJump backwardJump
    dsimp only
    rw [none]
    split <;> rfl
  have waits : ∀ c, (u.clockAt new).atThreshold c = false := by
    intro c
    have free : (u.clockAt new).available c = none :=
      State.available_none.2 (fun e mem => absurd mem (h ▸ List.not_mem_nil))
    unfold State.atThreshold
    rw [free]
  have reaches : ∀ b c, jumpReaches b c (u.clockAt new) = u.clockAt new := by
    intro b c
    have wait : compareWait c (u.clockAt new) = u.clockAt new := by
      unfold compareWait
      rw [waits, Bool.and_false]
      rfl
    have none : trigger c (u.clockAt new) = u.clockAt new := trigger_none (s := u.clockAt new) (quiet c)
    unfold jumpReaches
    rw [none, wait]
    split <;> rfl
  rw [setClock_eq, jump]
  exact eachChan_same (fun c _ => reaches _ c)

/-- An answer at intake is made apart from the channels' records. -/
theorem OnlyMarks.answered (h : OnlyMarks s t) : OnlyMarks (answerDone slot s) (answerDone slot t) where
  rest := by
    conv =>
      lhs
      rw [h.rest]
    rfl
  state := h.state
  pick := h.pick
  codeDue := h.codeDue

/-- The event of a SETCLOCK where the jump has left the part as `w`, whose channels take no pick: `w` with the docket
answered, and marks of its channels. -/
theorem setclock_leaves (noPage : bus.prompt = []) (hands : s.Hands bus slot (some .setclock) u)
    (time : u.slotField slot 32 4 = new) (inDay : new < dayMs) (calm : w.Calm) (quiet : ∀ c, w.takesNoPick c)
    (jump : OnlyMarks w (jumpCalendar u.clock.value new (u.clockAt new))) :
    ∃ t, exec (.setclock slot bus) s = .next t ∧ OnlyMarks (answerDone slot w) t := by
  have set : OnlyMarks w (setClock new u) := by
    rw [setClock_eq]
    exact jump.trans (OnlyMarks.eachChan (jumpReaches_onlyMarks _) Chan.all _ (jump.noPick quiet))
  refine ⟨answerDone slot (setClock new u), ?_, set.answered⟩
  rw [exec_setclock hands time inDay, settleEvent_calm (set.calm calm).done noPage]

/-- What every SETCLOCK leaves that brings no pick: the docket answered as after `v`, with the new time; and the items
of the queues and host memory as in `u`. -/
def SetclockAnswered (slot new : Nat) (u v t : State) : Prop :=
  t.rack = (State.answeredAtIntake { v with clock := { value := new, isSet := true } } slot .done none .none).rack
    ∧ t.clock = { value := new, isSet := true } ∧ t.telex = u.telex ∧ t.priority = u.priority ∧ t.mem = u.mem

theorem OnlyMarks.setclockAnswered {v : State} (h : OnlyMarks (answerDone slot w) t) (rack : w.rack = v.rack)
    (clock : w.clock = { value := new, isSet := true }) (telex : w.telex = u.telex) (priority : w.priority = u.priority)
    (mem : w.mem = u.mem) : SetclockAnswered slot new u v t := by
  have made : (answerDone slot w).rack
      = (State.answeredAtIntake { v with clock := { value := new, isSet := true } } slot .done none .none).rack := by
    simp only [answerDone, answerAtIntake_eq, State.answeredAtIntake, State.intakeAnswer, State.stamp, rack, clock]
  unfold SetclockAnswered
  rw [h.rest]
  exact ⟨made, clock, telex, priority, mem⟩

theorem OnlyMarks.calendar (h : OnlyMarks s t) : t.calendar = s.calendar := by rw [h.rest]

theorem State.OneWaits.clockAt (h : u.OneWaits e) (new : Nat) : (u.clockAt new).OneWaits e :=
  ⟨h.calendar, h.quiet, h.phase, h.single, h.stays, h.left, h.start⟩

theorem CalEntry.overMissed_all_result (e : CalEntry) :
    (e.sentTally = 0 → (e.fresh.overMissed e.left).result = .failed)
      ∧ (e.sentTally ≠ 0 → 1 ≤ e.left → (∃ c, inMask e.mask c = true) →
          (e.fresh.overMissed e.left).result = .partly) := by
  have carried := CalEntry.overMissed_carriedOver e.left e.fresh
  unfold CalEntry.result
  rw [carried.sentTally, carried.unsentTally]
  refine ⟨fun none => if_pos none, fun some left ⟨c, inMask⟩ => ?_⟩
  have chans : 0 < (maskChans e.mask).length := List.length_pos_of_mem (mem_maskChans.2 inMask)
  have missed : e.unsentTally + e.left * (maskChans e.mask).length ≠ 0 :=
    Nat.ne_of_gt (Nat.add_pos_right _ (Nat.mul_pos left chans))
  exact (if_neg some).trans (if_neg missed)

theorem pendingOn_get (mask : BitVec 8) (c : Chan) :
    (pendingOn mask).get c = if inMask mask c then .pending else .notUsed := Six.get_ofFn ..

/-! ## The docket's jump over one waiting entry -/

/-- What the statements suppose of a SETCLOCK docket: it is handed over on a bus that brings no page, between events,
with a time in the day. -/
structure SetclockHanded (slot new : Nat) (bus : Bus) (s u : State) : Prop where
  noPage : bus.prompt = []
  hands : s.Hands bus slot (some .setclock) u
  calm : u.Calm
  time : u.slotField slot 32 4 = new
  inDay : new < dayMs

/-- A jump that reaches no start time leaves the entry as it was. -/
theorem SetclockHanded.jump_misses (h : SetclockHanded slot new bus s u) (waits : u.OneWaits e)
    (jump : jumpCalendar u.clock.value new (u.clockAt new) = u.clockAt new) :
    ∃ t, exec (.setclock slot bus) s = .next t ∧ SetclockAnswered slot new u u t ∧ t.calendar = [e] := by
  obtain ⟨t, next, marks⟩ := setclock_leaves (w := u.clockAt new) h.noPage h.hands h.time h.inDay h.calm waits.quiet
    (by rw [jump]; exact OnlyMarks.refl _)
  exact ⟨t, next, marks.setclockAnswered rfl rfl rfl rfl rfl, marks.calendar.trans waits.calendar⟩

/-- A backward jump onto the start time makes the entry DUE with its whole tolerance (R9). -/
theorem SetclockHanded.jump_back_onto (h : SetclockHanded slot new bus s u) (waits : u.OneWaits e)
    (back : 43200000 ≤ forward u.clock.value new) (same : e.start = new) :
    ∃ t, exec (.setclock slot bus) s = .next t ∧ SetclockAnswered slot new u u t ∧ t.calendar = [e.dueNow] := by
  obtain ⟨t, next, marks⟩ := setclock_leaves (w := { u.clockAt new with calendar := [e.dueNow] }) h.noPage h.hands
    h.time h.inDay h.calm waits.quiet (by rw [(waits.clockAt new).back_onto back same]; exact OnlyMarks.refl _)
  exact ⟨t, next, marks.setclockAnswered rfl rfl rfl rfl rfl, marks.calendar⟩

/-- A forward jump over `k` repetitions, fewer than are left: they are MISSED, and the entry is placed (R8, R113). -/
theorem SetclockHanded.jump_over_left (h : SetclockHanded slot new bus s u) (waits : u.OneWaits e)
    (ahead : forward u.clock.value new < 43200000) (past : 1 ≤ forward u.clock.value e.start)
    (reached : forward u.clock.value e.start ≤ forward u.clock.value new) {k : Nat} (some : k < e.left)
    (behind : ∀ j < k, (e.tolerance : Int) < (forward e.start new : Int) - (j : Int) * e.interval)
    (stops : (forward e.start new : Int) - (k : Int) * e.interval ≤ e.tolerance) :
    ∃ t, exec (.setclock slot bus) s = .next t
      ∧ SetclockAnswered slot new u (if k = 0 then u else u.raise .missed) t
      ∧ t.calendar
        = [(e.fresh.overMissed k).placeAt ((forward e.start new : Int) - (k : Int) * (e.interval : Int))] := by
  generalize hx : (e.fresh.overMissed k).placeAt ((forward e.start new : Int) - (k : Int) * (e.interval : Int)) = x
  obtain ⟨t, next, marks⟩ := setclock_leaves (w := (u.clockAt new).leftWith (k != 0) x) h.noPage h.hands h.time h.inDay
    (State.leftWith_calm (s := u.clockAt new) h.calm _ _) (State.leftWith_noPick (s := u.clockAt new) waits.quiet _ _)
    (by rw [(waits.clockAt new).over_left ahead past reached some behind stops, hx]; exact OnlyMarks.refl _)
  refine ⟨t, next, ?_, marks.calendar⟩
  cases k with
  | zero => exact marks.setclockAnswered rfl rfl rfl rfl rfl
  | succ k => exact marks.setclockAnswered rfl rfl rfl rfl rfl

/-- A forward jump over every repetition left: they are MISSED, and the entry ends, answered before the docket. -/
theorem SetclockHanded.jump_over_all (h : SetclockHanded slot new bus s u) (waits : u.OneWaits e)
    (ahead : forward u.clock.value new < 43200000) (past : 1 ≤ forward u.clock.value e.start)
    (reached : forward u.clock.value e.start ≤ forward u.clock.value new)
    (behind : ∀ j < e.left, (e.tolerance : Int) < (forward e.start new : Int) - (j : Int) * e.interval) :
    ∃ t, exec (.setclock slot bus) s = .next t ∧ t.calendar = []
      ∧ SetclockAnswered slot new u { u.raise .missed with rack := { (u.raise .missed).rack with
          backlog := u.rack.backlog ++ [State.takenAnswer (u.clockAt new) e.slot (e.fresh.overMissed e.left).result
            (.bulletin (e.done + e.left) (missedOn e.mask) e.sentCount) true] } } t := by
  obtain ⟨t, next, marks⟩ := setclock_leaves
    (w := ((u.clockAt new).raise .missed).entryGone e.slot (e.fresh.overMissed e.left).result
      (.bulletin (e.done + e.left) (missedOn e.mask) e.sentCount))
    h.noPage h.hands h.time h.inDay h.calm waits.quiet ((waits.clockAt new).over_all ahead past reached behind)
  exact ⟨t, next, marks.calendar, marks.setclockAnswered rfl rfl rfl rfl rfl⟩

/-- Settles O34: the jump over one entry is followed through its cases, and a SETCLOCK adds the docket's answer. -/
theorem setclockSetsAndJumps : Obligations.SetclockSetsAndJumps := by
  refine ⟨fun slot bus s u noPage hands calm inDay => ⟨?time, ?empty⟩,
    fun e old new s calendar quiet phase single stays left _ _ start _ => ?jump,
    fun e slot new bus s u noPage hands calm time inDay _ calendar quiet phase single stays left start => ?docket⟩
  case time =>
    exact ⟨_, exec_setclock hands rfl (Nat.lt_succ_of_le inDay),
      answerDone_takes_time hands.power (Kept.setClock _ u) (setClock_stamp _ u) (Kept.refl _).settleEvent⟩
  case empty =>
    intro none quiet
    rw [exec_setclock hands rfl (Nat.lt_succ_of_le inDay), setClock_empty none quiet]
    have still : (u.clockAt (u.slotField slot 32 4)).Calm := calm
    rw [settleEvent_calm still.done noPage]
    rfl
  case jump =>
    have waits : s.OneWaits e := ⟨calendar, quiet, phase, single, stays, left, start⟩
    refine ⟨waits.over_inTime, waits.back, fun back same => ?_⟩
    rw [waits.back_onto back same]
    exact ⟨e.dueNow, rfl, rfl, rfl, rfl, rfl, rfl⟩
  case docket =>
    have waits : u.OneWaits e := ⟨calendar, quiet, phase, single, stays, left, start⟩
    have handed : SetclockHanded slot new bus s u := ⟨noPage, hands, calm, time, Nat.lt_succ_of_le inDay⟩
    intro answered missing late
    refine ⟨fun back => ?_, fun ahead short => ?_, fun k ahead past reached some behind stops => ?_,
      fun ahead past reached behind => ?_⟩
    · by_cases same : e.start = new
      · obtain ⟨t, next, done, entry⟩ := handed.jump_back_onto waits back same
        exact ⟨t, next, done, fun other => absurd same other, fun _ => ⟨e.dueNow, entry, rfl, rfl, rfl, rfl, rfl⟩⟩
      · obtain ⟨t, next, done, entry⟩ := handed.jump_misses waits ((waits.clockAt new).back back same)
        exact ⟨t, next, done, fun _ => entry, fun onto => absurd onto same⟩
    · exact handed.jump_misses waits ((waits.clockAt new).short ahead short)
    · obtain ⟨t, next, done, entry⟩ := handed.jump_over_left waits ahead past reached some behind stops
      have placed := CalEntry.placeAt_placedOver k (forward e.start new) e
      refine ⟨t, _, next, done, entry, placed.done, placed.left, placed.start, placed.waits, placed.due, fun c => ?_,
        placed.limit, fun n c => ?_⟩
      · rw [placed.out, pendingOn_get]
      · rw [placed.last n, missedOn_get]
    · obtain ⟨t, next, gone, done⟩ := handed.jump_over_all waits ahead past reached behind
      obtain ⟨failed, partly⟩ := e.overMissed_all_result
      exact ⟨t, missedOn e.mask, _, next, gone, done, missedOn_get e.mask, failed, fun some => partly some left⟩

end Sys2Proof.Machine
